-- ==== Sys2Proof/Word.lean ====
section
/-! DEFINITION. The two plain value types of CORE: the byte (00_scope R15) and the 16-bit sector address (10_state R22). -/

namespace Sys2Proof

/-- A byte, an unsigned value 0..255 whose bit 0 is its least significant bit (00_scope R15). -/
abbrev Byte := BitVec 8

/-- A sector address: "a 16-bit sector address", a sector index and not a byte address (20_memory R51). -/
abbrev SectorAddr := BitVec 16

end Sys2Proof
end

