-- ==== Sys2Proof/Config.lean ====
section
/-! DEFINITION. The constants RCARD fixes (00_scope R6) and the parameters of one instance of CORE (00_scope R7). -/

namespace Sys2Proof

/-- `FRAME_LEN`: bytes in a command frame and in a well-formed response frame (R6; 90_conflicts C1). -/
abbrev frameLen : Nat := 140

/-- `HDR_LEN`: header bytes, positions 0 to 9 (R6). -/
abbrev hdrLen : Nat := 10

/-- `DATA_LEN`: sector data bytes, positions 10 to 137 (R6). -/
abbrev dataLen : Nat := 128

/-- `POS_DATA`: the first position of the sector data (R6). -/
abbrev posData : Nat := 10

/-- A position of the receive buffer, 0 to 139: "positions 140 and above counted, not stored" (20_memory R50), so no other
position can be read or written. -/
abbrev RxPos := Fin frameLen

/-- `POS_CHK`: the position of the checksum byte (R6). -/
abbrev posChk : RxPos := 138

/-- `POS_STAT`: the position of the status byte (R6). -/
abbrev posStat : RxPos := 139

/-- A card slot, 1 or 2; no other value can be presented (10_state R23, R25). -/
inductive Slot where
  | slot1
  | slot2
  deriving DecidableEq, Repr

/-- A pair of card-id bytes: `id1` is sent at position 2, `id2` at position 3 (10_state R24). -/
structure CardId where
  id1 : Byte
  id2 : Byte
  deriving DecidableEq, Repr

/-- `SLOT_ID` as a table, one row for each of the two slots (R7; 92_eei_decisions D6). -/
structure SlotTable where
  slot1 : CardId
  slot2 : CardId
  deriving DecidableEq, Repr

/-- The parameters of R7, plain data. The two parameters that R7 gives as a set and as a predicate are lists read
by membership only (log entry 2). `PAD` is no field: it is `0x00` wherever it stands (R7, D7). `Cause` is a type
(`Machine.Cause`). -/
structure Config where
  /-- `ACCESS_CODE`, sent at position 0. -/
  accessCode : Byte
  /-- `CMD_READ`, sent at position 1. -/
  cmdRead : Byte
  /-- `SLOT_ID`. -/
  slotId : SlotTable
  /-- `MAX_ADDR`, the highest address accepted, inclusive (90_conflicts C2); 0..65535 by its width. -/
  maxAddr : SectorAddr
  /-- `CHK_HDR_POS`, the header positions whose received bytes enter the checksum, each in 0..9 by its type. -/
  chkHdrPos : List (Fin 10)
  /-- `StatusOk`, the status bytes that indicate success. -/
  statusOk : List Byte
  /-- `ADDR_IN_W`, the width of the request's address port, at least 17 (`Config.wellFormed`). -/
  addrInW : Nat
  deriving DecidableEq, Repr

/-- The defaults R7 recommends. `0x81`, `0x52` and `0x47` are PRESUMED: the spec marks them as general knowledge
(93 G1 to G3; log entry 5). -/
def Config.defaults : Config where
  accessCode := 0x81
  cmdRead := 0x52
  slotId := ⟨⟨0x00, 0x00⟩, ⟨0x00, 0x00⟩⟩
  maxAddr := 0xFFFF
  chkHdrPos := [8, 9]
  statusOk := [0x47]
  addrInW := 32

end Sys2Proof
end

