-- ==== Sys2Proof/Syntax.lean ====
section
/-! DEFINITION. The whole syntax: the host's request (30_encoding R77) and the one instruction, READ (R81; opcode_table.json). -/

namespace Sys2Proof

/-- A request, the triple on the request ports (10_state R25). `addrIn` is a natural number, as R25 allows
(log entry 3). -/
structure Request where
  /-- `addr_in`, the requested sector address, possibly out of range. -/
  addrIn : Nat
  /-- `slot`. -/
  slot : Slot
  /-- `cid_ovr`: the card-id override; `none` means "use `SLOT_ID(slot)`". -/
  cidOvr : Option CardId
  deriving DecidableEq, Repr

/-- The instructions of CORE: "CORE has one operation" (30_encoding R77). -/
inductive Instr where
  /-- `READ <address>, <slot>[, cid=(<b0>,<b1>)]` (30_encoding R81; 43_read_operation R140). -/
  | read (req : Request)
  deriving DecidableEq, Repr

end Sys2Proof
end

