-- ==== Sys2Proof/WellFormed.lean ====
section
/-! DEFINITION. The checks of the syntax: what the request ports can carry, and what a command frame carries whole. -/

namespace Sys2Proof

/-- `ADDR_IN_W` is at least 17, so that an address above `0xFFFF` can be presented (00_scope R7; 10_state R25). -/
def Config.wellFormed (cfg : Config) : Bool :=
  decide (17 ≤ cfg.addrInW)

/-- The request's address fits the port `addr_in` of `ADDR_IN_W` bits (10_state R25). The other two operands are
well formed by their types. -/
def Instr.wellFormed (cfg : Config) : Instr → Bool
  | .read req => decide (req.addrIn < 2 ^ cfg.addrInW)

/-- A command frame holds every operand of the instruction: the address has 16 bits (30_encoding R73), the card-id
pair is given, and the slot, which no position of the frame holds (R70, R74), is the one the decoder names
(log entry 13). -/
def Instr.frameForm : Instr → Bool
  | .read req => decide (req.addrIn ≤ 65535) && req.cidOvr.isSome && decide (req.slot = .slot1)

end Sys2Proof
end

