-- ==== Sys2Proof/Machine/Operands.lean ====
section
/-! DEFINITION. The operands of READ: the address operand (30_encoding R73) and the card-id operand (R74). -/

namespace Sys2Proof.Machine

/-- "Legal if and only if `addr_in <= 65535 AND addr_in <= MAX_ADDR`" (30_encoding R73). -/
def addrLegal (cfg : Config) (addrIn : Nat) : Bool :=
  decide (addrIn ≤ 65535) && decide (addrIn ≤ cfg.maxAddr.toNat)

/-- `addr_in[15:0]` (40_frame_builder R91). -/
def addrField (addrIn : Nat) : SectorAddr :=
  BitVec.ofNat 16 addrIn

/-- `a[15:8] = a >> 8` (30_encoding R73). -/
def addrMsb (a : SectorAddr) : Byte :=
  a.extractLsb' 8 8

/-- `a[7:0] = a & 0xFF` (30_encoding R73). -/
def addrLsb (a : SectorAddr) : Byte :=
  a.extractLsb' 0 8

/-- The address whose two bytes are sent most significant byte first (20_memory R52). -/
def addrOfBytes (msb lsb : Byte) : SectorAddr :=
  msb ++ lsb

/-- `SLOT_ID(slot)` (00_scope R7). -/
def slotCardId (cfg : Config) : Slot → CardId
  | .slot1 => cfg.slotId.slot1
  | .slot2 => cfg.slotId.slot2

/-- "The pair sent is `cid_ovr` when present, otherwise `SLOT_ID(slot)`" (30_encoding R74). -/
def cardIdFor (cfg : Config) (req : Request) : CardId :=
  match req.cidOvr with
  | some c => c
  | none => slotCardId cfg req.slot

end Sys2Proof.Machine
end

