-- ==== Sys2Proof/Decode.lean ====
section
/-! DEFINITION. The command frame (format CF, 30_encoding R70, R71): a decoder that is total on any bytes, the encoder
after it, and the opcode table's row as mask and match (R78). CORE itself never decodes a frame (R79): the decoder reads
which READ request a frame stands for. -/

namespace Sys2Proof

/-- Why a byte sequence is no READ command frame (30_encoding R78). -/
inductive DecodeError where
  /-- its length is not 140 -/
  | wrongLength (n : Nat)
  /-- position 0 is not `ACCESS_CODE` -/
  | notAccessCode (b : Byte)
  /-- position 1 is not `CMD_READ`: other command codes "do not exist" in CORE (R79) -/
  | notReadCommand (b : Byte)
  /-- some position of 6 to 139 is not zero -/
  | placeholderNotZero
  deriving DecidableEq, Repr

/-- The number of zero placeholder bytes, positions 6 to 139 (30_encoding R71: `rep(134, 0x00)`). -/
abbrev padLen : Nat := 134

/-- The decoder. The address is positions 4 and 5, most significant byte first; the card-id pair of positions 2 and 3
is read as an override; no position holds the slot, and slot 1 stands for it (DESIGN CHOICE, log entry 13). -/
def decode (cfg : Config) (f : List Byte) : Except DecodeError Instr :=
  match f with
  | access :: cmd :: id1 :: id2 :: msb :: lsb :: pad =>
    if pad.length ≠ padLen then .error (.wrongLength f.length)
    else if access ≠ cfg.accessCode then .error (.notAccessCode access)
    else if cmd ≠ cfg.cmdRead then .error (.notReadCommand cmd)
    else if pad.all (fun b => b = 0x00) then
      .ok (.read ⟨(Machine.addrOfBytes msb lsb).toNat, .slot1, some ⟨id1, id2⟩⟩)
    else .error .placeholderNotZero
  | short => .error (.wrongLength short.length)

/-- `CF(a, c0, c1)` (30_encoding R71). -/
def commandFrame (cfg : Config) (a : SectorAddr) (c : CardId) : List Byte :=
  [cfg.accessCode, cfg.cmdRead, c.id1, c.id2, Machine.addrMsb a, Machine.addrLsb a] ++ List.replicate padLen 0x00

/-- The encoder: the command frame of an instruction (30_encoding R71, R73, R74). An address of more than 16 bits has
no frame (R79); of it the low 16 bits are encoded here, and `Machine.build` is what refuses it. -/
def encode (cfg : Config) : Instr → List Byte
  | .read req => commandFrame cfg (Machine.addrField req.addrIn) (Machine.cardIdFor cfg req)

/-- The instruction that the command frame of `i` stands for: the operands the frame does not hold take the values the
decoder gives them (30_encoding R70, R74; log entry 13). -/
def Instr.onFrame (cfg : Config) : Instr → Instr
  | .read req => .read ⟨req.addrIn, .slot1, some (Machine.cardIdFor cfg req)⟩

/-- The row's mask at a position: "`FF` at every fixed position (0, 1, 6 to 139) and `00` at the operand positions
(2 to 5)" (30_encoding R78). -/
def tableMask (i : Nat) : Byte :=
  if 2 ≤ i ∧ i ≤ 5 then 0x00 else 0xFF

/-- The row's match at a position, with the instance's constants at positions 0 and 1 (30_encoding R78). -/
def tableMatch (cfg : Config) (i : Nat) : Byte :=
  if i = 0 then cfg.accessCode else if i = 1 then cfg.cmdRead else 0x00

/-- The bytes of a table word: position 0 is bits 7..0 (log entry 14); every bit at or above `nbits` is 0, up to the
140 bytes of a frame. -/
def tableWordBytes (nbits w : Nat) : List Byte :=
  (List.range (max frameLen ((nbits + 7) / 8))).map fun i => BitVec.ofNat 8 ((w % 2 ^ nbits) / 2 ^ (8 * i))

/-- The instruction a table word stands for in an instance with parameters `cfg`; "a model built for other values
substitutes them in `match`" (30_encoding R78). -/
def decodeWordFor (cfg : Config) (nbits w : Nat) : Option Instr :=
  (decode cfg (tableWordBytes nbits w)).toOption

/-- The instruction a word of opcode_table.json stands for, at the default parameters the table is written for. -/
def decodeTableWord (nbits w : Nat) : Option Instr :=
  decodeWordFor Config.defaults nbits w

/-- The request of an instruction, as the host presents it (30_encoding R81: a line `READ` stands for its `START`). -/
def Instr.request : Instr → Request
  | .read req => req

end Sys2Proof
end

