-- ==== Sys2Proof/Machine/State.lean ====
section
/-! DEFINITION. State as plain data: CORE's registers (10_state R20), the instance's parameters, and what the host, the
transport and the platform will do; the reasons a step can stop; the state after reset (10_state R40). -/

namespace Sys2Proof.Machine

/-- `MODE`: `IDLE = 0`, `XFER = 1`, `DONE = 2`, `FAULT = 3` (10_state R21). -/
inductive Mode where
  | idle
  | xfer
  | done
  | fault
  deriving DecidableEq, Repr

/-- `ERR`: `0 = NONE`, `1 = InvalidAddress`, `2 = TransportError`, `3 = MalformedResponse` (10_state R29). -/
inductive ErrCode where
  | none
  | invalidAddress
  | transportError
  | malformedResponse
  deriving DecidableEq, Repr

/-- The type `Cause` of transport failure causes: tokens that CORE stores and never inspects (10_state R30; 92 D12;
log entry 4). -/
structure Cause where
  token : Nat
  deriving DecidableEq, Repr

/-- The three aborting causes with what they carry (60_exceptions R160). -/
inductive Abort where
  | invalidAddress
  | transportError (c : Cause)
  | malformedResponse
  deriving DecidableEq, Repr

/-- The receive buffer `RXF` of 140 bytes, the only storage with addresses (10_state R26; 20_memory R50): (position, byte)
cells, positions strictly rising and below 140. A position that is not listed holds `unlistedByte` (log entry 7). -/
structure Memory where
  cells : List Host.Cell
  deriving DecidableEq, Repr

/-- The events that step CORE (00_scope R18). -/
inductive Event where
  /-- `START(addr_in, slot, cid_ovr)`, by the host -/
  | start (req : Request)
  /-- `RX(b)`, by the transport -/
  | rx (b : Byte)
  /-- `END`, by the transport -/
  | finish
  /-- `FAIL(c)`, by the transport -/
  | fail (c : Cause)
  /-- `RESET`, by the platform -/
  | reset
  deriving DecidableEq, Repr

/-- Why the machine stops with no next state. -/
inductive Fault where
  /-- Raised by `onEvent` for `RX`, `END` or `FAIL` in a mode other than `XFER`, which "cannot occur" (41_frame_sync R107;
  93 U14: stuck). Safe: the model stops where nothing is specified (log entry 11). -/
  | unsolicitedTransportEvent
  deriving DecidableEq, Repr

/-- What the model gives no meaning. -/
inductive Refusal where
  /-- An instruction without a meaning yet. No arm of `exec` answers it: READ has its meaning. Safe. -/
  | notModelled (mnemonic : String)
  /-- Raised by `onReset` for `RESET` in mode `XFER`: "refuse a run in which `RESET` occurs while `MODE = XFER`"
  (70_reset R181; 93 U13). Safe. -/
  | resetDuringTransfer
  /-- Raised by `readPort` for `res_*`, `res_valid`, `diag_*` outside mode `DONE` (10_state R35; 93 U12). Safe. -/
  | resultUndefined
  /-- Raised by `readPort` for `cause` when `ERR` is not 2 (10_state R35; 93 U12). Safe. -/
  | causeUndefined
  /-- Raised by `readPort` for `tx_byte` when `tx_active` is 0 (10_state R36). Safe. -/
  | txByteUndefined
  deriving DecidableEq, Repr

/-- The state. The first twelve fields are "the complete state of CORE" (10_state R20); the last three are the model's
own: the parameters (log entry 1) and the data of the other agents (log entry 8). -/
structure State where
  /-- `MODE` (R21) -/
  mode : Mode
  /-- `ADDR_R` (R22) -/
  addrR : SectorAddr
  /-- `SLOT_R` (R23) -/
  slotR : Slot
  /-- `CID_R` (R24) -/
  cidR : CardId
  /-- `IDX` (R28) -/
  idx : BitVec 8
  /-- `RXF` (R26) -/
  rxf : Memory
  /-- `ACC` (R27) -/
  acc : Byte
  /-- `ERR` (R29) -/
  err : ErrCode
  /-- `CAUSE` (R30) -/
  cause : Cause
  /-- `VALID` (R31) -/
  valid : Bool
  /-- `CHKERR` (R32) -/
  chkerr : Bool
  /-- `STATERR` (R33) -/
  staterr : Bool
  /-- the parameters of this instance (00_scope R7); no step changes them (10_state R41) -/
  cfg : Config
  /-- the request the host presents and CORE has not accepted yet (41_frame_sync R101: "the request remains pending on the
  host's side") -/
  port : Option Request
  /-- what the host, the transport and the platform do next, the earliest first (00_scope R18) -/
  events : List Event
  deriving DecidableEq, Repr

/-- The state after reset (10_state R40). `ADDR_R`, `SLOT_R`, `CID_R`, `RXF` and `CAUSE` are unspecified there: their values
here are the model's (DESIGN CHOICE, log entry 6; for `RXF`, which lists nothing, so that every position holds `unlistedByte`,
log entry 7). -/
def State.reset : State where
  mode := .idle
  addrR := 0x0000
  slotR := .slot1
  cidR := ⟨0x00, 0x00⟩
  idx := 0
  rxf := ⟨[]⟩
  acc := 0x00
  err := .none
  cause := ⟨0⟩
  valid := false
  chkerr := false
  staterr := false
  cfg := Config.defaults
  port := none
  events := []

end Sys2Proof.Machine
end

