-- ==== Sys2Proof/Machine/Ops.lean ====
section
/-! DEFINITION. The named operations over the receive buffer and the registers, and error entry and return
(60_exceptions R166, R168) as shared operations. -/

namespace Sys2Proof.Machine

/-! ## The receive buffer -/

/-- What a position of `RXF` holds that no cell lists, as after reset: 10_state R40 leaves `RXF` unspecified there ("any
value", 93 U11). DESIGN CHOICE, log entry 7. -/
def unlistedByte : Byte := 0x00

/-- The byte at a position. -/
def cellByte (pos : Nat) : List Host.Cell → Byte
  | [] => unlistedByte
  | (k, v) :: rest => if k = pos then v else cellByte pos rest

/-- The cells without those at `pos`. -/
def eraseCell (pos : Nat) (cs : List Host.Cell) : List Host.Cell :=
  cs.filter fun c => decide (c.1 ≠ pos)

/-- The cells with one more in front of the first whose position is higher. -/
def insertCell (pos : Nat) (b : Byte) : List Host.Cell → List Host.Cell
  | [] => [(pos, b)]
  | (k, v) :: rest => if pos < k then (pos, b) :: (k, v) :: rest else (k, v) :: insertCell pos b rest

/-- The cells with byte `b` at `pos`, the canonical form kept: no cell where `b` is what an unlisted position holds. -/
def setCell (pos : Nat) (b : Byte) (cs : List Host.Cell) : List Host.Cell :=
  if b = unlistedByte then eraseCell pos cs else insertCell pos b (eraseCell pos cs)

/-- All positions are at least `lo`, below 140, and strictly rising, and no byte is the unlisted one. -/
def cellsFrom (lo : Nat) : List Host.Cell → Bool
  | [] => true
  | (k, v) :: rest => decide (lo ≤ k) && decide (k < frameLen) && decide (v ≠ unlistedByte) && cellsFrom (k + 1) rest

/-- The canonical form: positions strictly rising and below 140 (20_memory R50), no entry equal to what an unlisted position
holds. -/
def Memory.wf (m : Memory) : Bool :=
  cellsFrom 0 m.cells

/-- `RXF[pos]`. -/
def Memory.read (m : Memory) (pos : RxPos) : Byte :=
  cellByte pos.val m.cells

/-- `RXF[pos] <- b` (00_scope R17). -/
def Memory.write (m : Memory) (pos : RxPos) (b : Byte) : Memory :=
  ⟨setCell pos.val b m.cells⟩

/-- The `n` bytes of `RXF` from position `pos` on, for `pos + n <= 140`. -/
def Memory.bytes (m : Memory) (pos n : Nat) : List Byte :=
  (List.range n).map fun k => cellByte (pos + k) m.cells

/-! ## Error entry and return -/

/-- The code of an aborting cause, as `ERR` records it (60_exceptions R160). -/
def abortCode : Abort → ErrCode
  | .invalidAddress => .invalidAddress
  | .transportError _ => .transportError
  | .malformedResponse => .malformedResponse

/-- What `CAUSE` holds after entry: "`CAUSE <- info` if `E = TransportError`; otherwise `CAUSE` unchanged"
(60_exceptions R166). -/
def abortCause (before : Cause) : Abort → Cause
  | .invalidAddress => before
  | .transportError c => c
  | .malformedResponse => before

/-- Error entry, `raise E(info)` (60_exceptions R166): "every other register keeps its value". -/
def raiseError (e : Abort) (s : State) : State :=
  { s with
    mode := .fault
    err := abortCode e
    cause := abortCause s.cause e
    valid := false
    chkerr := false
    staterr := false }

/-- The accepting branch of START (41_frame_sync R100), which is also the only return from an error: "`FAULT` is left by
the next accepted `START` (or by `RESET`)", and "Nothing is restored, because nothing was saved" (60_exceptions R168). -/
def acceptRequest (req : Request) (s : State) : State :=
  { s with
    mode := .xfer
    addrR := addrField req.addrIn
    slotR := req.slot
    cidR := cardIdFor s.cfg req
    idx := 0
    acc := 0x00
    err := .none
    valid := false
    chkerr := false
    staterr := false }

/-! ## The data of the other agents -/

/-- The host's request is left pending on its side (41_frame_sync R101). -/
def holdRequest (req : Request) (s : State) : State :=
  { s with port := some req }

/-- The pending request is taken off the host's side, to be accepted. -/
def takeRequest (s : State) : State :=
  { s with port := none }

/-- The events without the first one, which is being reacted to. -/
def withEvents (rest : List Event) (s : State) : State :=
  { s with events := rest }

/-- The registers at their reset values (70_reset R180); parameters and the other agents' data are no registers of CORE. -/
def resetCore (s : State) : State :=
  { State.reset with cfg := s.cfg, port := s.port, events := s.events }

end Sys2Proof.Machine
end

