-- ==== Sys2Proof/Machine/Flags.lean ====
section
/-! DEFINITION. The checksum accumulator (10_state R27; 42_response_parser R122) and the three result flags (R123 to R125). -/

namespace Sys2Proof.Machine

/-- `XOR(S)`; "`XOR` of the empty sequence is `0x00`" (00_scope R16). -/
def xorAll : List Byte → Byte
  | [] => 0x00
  | b :: bs => b ^^^ xorAll bs

/-- `i in CHK_HDR_POS`. -/
def headerChecked (cfg : Config) (i : Nat) : Bool :=
  cfg.chkHdrPos.any fun p => p.val == i

/-- A checksummed position: "`i` in `CHK_HDR_POS`, or `10 <= i < 138`" (10_state R27). -/
def inChecksum (cfg : Config) (i : Nat) : Bool :=
  headerChecked cfg i || (decide (posData ≤ i) && decide (i < posChk.val))

/-- `ACC` after byte `b` was received at position `i` (10_state R27; 41_frame_sync R103). -/
def accumulate (cfg : Config) (i : Nat) (acc b : Byte) : Byte :=
  bif inChecksum cfg i then acc ^^^ b else acc

/-- `ACC` after the bytes of the list were received from position `i` on. -/
def accumulateAll (cfg : Config) (i : Nat) (acc : Byte) : List Byte → Byte
  | [] => acc
  | b :: bs => accumulateAll cfg (i + 1) (accumulate cfg i acc b) bs

/-- `CHKERR`: the computed checksum differs from the received checksum byte (42_response_parser R125). -/
def chkBad (computed received : Byte) : Bool :=
  computed != received

/-- `StatusOk(status)` (42_response_parser R123). -/
def statusGood (cfg : Config) (status : Byte) : Bool :=
  cfg.statusOk.contains status

/-- `STATERR`: the status byte does not indicate success (42_response_parser R125). -/
def statBad (cfg : Config) (status : Byte) : Bool :=
  !statusGood cfg status

/-- `VALID` (42_response_parser R124, R125). -/
def validResult (chkBad statBad : Bool) : Bool :=
  !chkBad && !statBad

end Sys2Proof.Machine
end

