-- ==== Sys2Proof/Machine/Builder.lean ====
section
/-! DEFINITION. The command frame assembler: TX (40_frame_builder R90) and BUILD (R91). -/

namespace Sys2Proof.Machine

/-- `TX(i)`: the byte CORE presents at position `i`, by position (40_frame_builder R90). It is evaluated for `i <= 139`
only. -/
def tx (s : State) (i : Nat) : Byte :=
  match i with
  | 0 => s.cfg.accessCode
  | 1 => s.cfg.cmdRead
  | 2 => s.cidR.id1
  | 3 => s.cidR.id2
  | 4 => addrMsb s.addrR
  | 5 => addrLsb s.addrR
  | _ => 0x00

/-- `BUILD(addr_in, slot, cid_ovr)` (40_frame_builder R91): the address check comes first, and when it fails no frame
exists. -/
def build (cfg : Config) (req : Request) : Except Abort (List Byte) :=
  if addrLegal cfg req.addrIn then .ok (commandFrame cfg (addrField req.addrIn) (cardIdFor cfg req))
  else .error .invalidAddress

end Sys2Proof.Machine
end

