-- ==== Sys2Proof/Machine/Parser.lean ====
section
/-! DEFINITION. The response frame parser: its functions of a frame (42_response_parser R120 to R125) and the form the END
step performs (R125). -/

namespace Sys2Proof.Machine

/-- The Read Result with its two diagnostics (00_scope R19; 42_response_parser R125). -/
structure ReadResult where
  data : List Byte
  checksum : Byte
  status : Byte
  valid : Bool
  diagChk : Bool
  diagStat : Bool
  deriving DecidableEq, Repr

/-- `data = R[10, 138)` (42_response_parser R121). -/
def sectorData (r : List Byte) : List Byte :=
  (r.drop posData).take dataLen

/-- `[ R[p] for p in CHK_HDR_POS ]`, in rising order of position: `CHK_HDR_POS` is a set (90_conflicts C7). -/
def headerEcho (cfg : Config) (r : List Byte) : List Byte :=
  (List.range hdrLen).filterMap fun p => if headerChecked cfg p then r[p]? else none

/-- `CHKSUM(R) = XOR( [ R[p] for p in CHK_HDR_POS ] ++ R[10, 138) )` (42_response_parser R122). -/
def chksum (cfg : Config) (r : List Byte) : Byte :=
  xorAll (headerEcho cfg r ++ sectorData r)

/-- The three fields EXTRACT and VALIDATE make of a computed checksum and the extracted bytes (42_response_parser R121,
R124, R125). -/
def resultOf (cfg : Config) (data : List Byte) (computed checksum status : Byte) : ReadResult where
  data := data
  checksum := checksum
  status := status
  valid := validResult (chkBad computed checksum) (statBad cfg status)
  diagChk := chkBad computed checksum
  diagStat := statBad cfg status

/-- `PARSE(R)` with LENCHK before it (42_response_parser R120, R125). -/
def parseFrame (cfg : Config) (r : List Byte) : Except Abort ReadResult :=
  if h : r.length = frameLen then
    .ok (resultOf cfg (sectorData r) (chksum cfg r) (r[posChk.val]'(by rw [h]; decide)) (r[posStat.val]'(by rw [h]; decide)))
  else .error .malformedResponse

/-- The flags PARSE writes, from the received checksum and status bytes, and the entry into `DONE` (42_response_parser R125;
41_frame_sync R105). -/
def deliver (checksum status : Byte) (s : State) : State :=
  { s with
    mode := .done
    chkerr := chkBad s.acc checksum
    staterr := statBad s.cfg status
    valid := validResult (chkBad s.acc checksum) (statBad s.cfg status) }

/-- `PARSE` as the END step performs it when `IDX = 140`: it reads `ACC`, `RXF[138]` and `RXF[139]`
(42_response_parser R125). -/
def parseStep (s : State) : State :=
  deliver (s.rxf.read posChk) (s.rxf.read posStat) s

end Sys2Proof.Machine
end

