-- ==== Sys2Proof/Machine/Sync.lean ====
section
/-! DEFINITION. The frame synchronizer: START, XCHG, EXTRA, END, FAIL (41_frame_sync R100 to R106). -/

namespace Sys2Proof.Machine

/-- `START` in a mode other than `XFER` (41_frame_sync R100). Both branches clear the three flags; the illegal one is error
entry for `InvalidAddress`, raised "before any transfer is attempted". -/
def start (req : Request) (s : State) : State :=
  if addrLegal s.cfg req.addrIn then acceptRequest req s
  else raiseError .invalidAddress s

/-- `XCHG` at position `i`, which is `IDX`: one byte inside the frame; the byte presented in the same exchange is `TX(i)`
(41_frame_sync R103). -/
def xchg (i : RxPos) (b : Byte) (s : State) : State :=
  { s with rxf := s.rxf.write i b, acc := accumulate s.cfg i.val s.acc b, idx := s.idx + 1 }

/-- `EXTRA`: a byte beyond the frame is counted to saturation and discarded (41_frame_sync R104). -/
def extra (s : State) : State :=
  { s with idx := 141 }

/-- `RX(b)` in `MODE = XFER`: XCHG inside the frame, EXTRA beyond it (41_frame_sync R103, R104). -/
def receive (b : Byte) (s : State) : State :=
  if h : s.idx.toNat < frameLen then xchg ⟨s.idx.toNat, h⟩ b s else extra s

/-- `END` in `MODE = XFER` (41_frame_sync R105). -/
def endTransfer (s : State) : State :=
  if s.idx.toNat ≠ frameLen then raiseError .malformedResponse s else parseStep s

/-- `FAIL(c)` in `MODE = XFER`, at any `IDX` (41_frame_sync R106). -/
def failTransfer (c : Cause) (s : State) : State :=
  raiseError (.transportError c) s

end Sys2Proof.Machine
end

