-- ==== Sys2Proof/Machine/Read.lean ====
section
/-! DEFINITION. READ: its meaning as an instruction, the event START (41_frame_sync R100, R101), and the frame-level READ,
"the normative outcome" (43_read_operation R140; 41_frame_sync R108). -/

namespace Sys2Proof.Machine

/-- READ as the host issues it: `START(addr_in, slot, cid_ovr)` (30_encoding R81). In `XFER` the request is held on the
host's side and no register changes (41_frame_sync R101); in every other mode it is accepted or raises `InvalidAddress`
(R100), and the transfer it began goes on in the steps that follow, one event each (43_read_operation R140). -/
def execRead (req : Request) (s : State) : Host.Outcome State Fault Refusal :=
  if s.mode = .xfer then .next (holdRequest req s) else .next (start req s)

/-- A transport answer: `Ok(R)`, or `Err(c)` after some bytes (41_frame_sync R108). -/
inductive Answer where
  | ok (r : List Byte)
  | err (before : List Byte) (c : Cause)
  deriving DecidableEq, Repr

/-- "The event sequence that realises an answer" (41_frame_sync R108). -/
def answerEvents : Answer → List Event
  | .ok r => r.map Event.rx ++ [.finish]
  | .err before c => before.map Event.rx ++ [.fail c]

/-- What a READ ends with (43_read_operation R140). -/
inductive ReadOutcome where
  | result (r : ReadResult)
  | error (e : Abort)
  deriving DecidableEq, Repr

/-- Lines 4 to 6 of READ: what an answer to the frame leads to (43_read_operation R140). -/
def answerOutcome (cfg : Config) : Answer → ReadOutcome
  | .err _ c => .error (.transportError c)
  | .ok r =>
    match parseFrame cfg r with
    | .ok res => .result res
    | .error e => .error e

/-- `READ(addr_in, slot, cid_ovr, A)` at the frame level (43_read_operation R140). -/
def readOutcome (cfg : Config) (req : Request) (a : Answer) : ReadOutcome :=
  match build cfg req with
  | .error e => .error e
  | .ok _ => answerOutcome cfg a

end Sys2Proof.Machine
end

