-- ==== Sys2Proof/Machine/Ports.lean ====
section
/-! DEFINITION. The output ports, functions of the state (10_state R35, R36), with the register encodings the host sees, and
the outcome of a READ as the ports show it. -/

namespace Sys2Proof.Machine

/-- The encoding of `MODE` (10_state R21). -/
def modeCode : Mode → BitVec 2
  | .idle => 0
  | .xfer => 1
  | .done => 2
  | .fault => 3

/-- The encoding of `ERR` (10_state R29). -/
def errBits : ErrCode → BitVec 2
  | .none => 0
  | .invalidAddress => 1
  | .transportError => 2
  | .malformedResponse => 3

/-- The encoding of `SLOT_R` and of the port `slot` (10_state R23, R25). -/
def slotBit : Slot → BitVec 1
  | .slot1 => 0
  | .slot2 => 1

/-- The output ports of 10_state R35 (host side) and R36 (transport side). -/
inductive OutPort where
  | busy
  | done
  | fault
  | err
  | cause
  | resData (k : Fin 128)
  | resChk
  | resStat
  | resValid
  | diagChk
  | diagStat
  | txActive
  | txByte
  | txLen
  deriving DecidableEq, Repr

/-- What a port shows. -/
inductive PortValue where
  | bit (b : Bool)
  | code (c : BitVec 2)
  | byte (b : Byte)
  | cause (c : Cause)
  | length (n : Nat)
  deriving DecidableEq, Repr

/-- `tx_active = (MODE = XFER AND IDX < 140)` (10_state R36). -/
def txActive (s : State) : Bool :=
  decide (s.mode = .xfer) && decide (s.idx.toNat < frameLen)

/-- The position of data byte `k`: `RES_DATA[k] = RXF[10 + k]` (10_state R34). -/
def dataPos (k : Fin 128) : RxPos :=
  ⟨posData + k.val, by have := k.isLt; simp only [posData, frameLen]; omega⟩

/-- A read of a result port: defined in mode `DONE` only (10_state R34, R35; 92 D14). -/
def whenDone (s : State) (v : PortValue) : Host.Outcome PortValue Fault Refusal :=
  if s.mode = .done then .next v else .refused .resultUndefined

/-- Reading an output port. "Reading a port outside the 'defined when' condition is given no meaning: a model refuses the
read" (10_state R35). A read is no step and changes nothing. -/
def readPort (p : OutPort) (s : State) : Host.Outcome PortValue Fault Refusal :=
  match p with
  | .busy => .next (.bit (decide (s.mode = .xfer)))
  | .done => .next (.bit (decide (s.mode = .done)))
  | .fault => .next (.bit (decide (s.mode = .fault)))
  | .err => .next (.code (errBits s.err))
  | .cause => if s.err = .transportError then .next (.cause s.cause) else .refused .causeUndefined
  | .resData k => whenDone s (.byte (s.rxf.read (dataPos k)))
  | .resChk => whenDone s (.byte (s.rxf.read posChk))
  | .resStat => whenDone s (.byte (s.rxf.read posStat))
  | .resValid => whenDone s (.bit s.valid)
  | .diagChk => whenDone s (.bit s.chkerr)
  | .diagStat => whenDone s (.bit s.staterr)
  | .txActive => .next (.bit (txActive s))
  | .txByte => if txActive s then .next (.byte (tx s s.idx.toNat)) else .refused .txByteUndefined
  | .txLen => .next (.length frameLen)

/-- The Read Result as the result ports show it in mode `DONE` (10_state R34). -/
def shownResult (s : State) : ReadResult :=
  ⟨s.rxf.bytes posData dataLen, s.rxf.read posChk, s.rxf.read posStat, s.valid, s.chkerr, s.staterr⟩

/-- The aborting error as `ERR` and `CAUSE` show it in mode `FAULT` (60_exceptions R160). -/
def shownError (s : State) : Option Abort :=
  match s.err with
  | .none => none
  | .invalidAddress => some .invalidAddress
  | .transportError => some (.transportError s.cause)
  | .malformedResponse => some .malformedResponse

/-- What the host can tell of the last READ: nothing in `IDLE` and `XFER`, the result in `DONE`, the error in `FAULT`
(43_read_operation R140, R141). -/
def shownOutcome (s : State) : Option ReadOutcome :=
  match s.mode with
  | .idle => none
  | .xfer => none
  | .done => some (.result (shownResult s))
  | .fault => (shownError s).map ReadOutcome.error

end Sys2Proof.Machine
end

