-- ==== Sys2Proof/Machine/Events.lean ====
section
/-! DEFINITION. What CORE does at each event in each mode (43_read_operation R141), and which event comes next. -/

namespace Sys2Proof.Machine

/-- A transport event: it steps CORE in mode `XFER` and "cannot occur" in any other (41_frame_sync R107). -/
def duringTransfer (s : State) (after : State) : Host.Outcome State Fault Refusal :=
  if s.mode = .xfer then .next after else .fault .unsolicitedTransportEvent

/-- `RESET` (70_reset R180); in mode `XFER` the run is refused (R181). -/
def onReset (s : State) : Host.Outcome State Fault Refusal :=
  if s.mode = .xfer then .refused .resetDuringTransfer else .next (resetCore s)

/-- Every event in every mode (43_read_operation R141). -/
def onEvent (e : Event) (s : State) : Host.Outcome State Fault Refusal :=
  match e with
  | .start req => exec (.read req) s
  | .rx b => duringTransfer s (receive b s)
  | .finish => duringTransfer s (endTransfer s)
  | .fail c => duringTransfer s (failTransfer c s)
  | .reset => onReset s

/-- The pending request whose hold is lifted: CORE is not in a transfer (41_frame_sync R101). -/
def readyRequest (s : State) : Option Request :=
  if s.mode = .xfer then none else s.port

/-- The next event of the other agents; with none, CORE waits and nothing changes (00_scope R9; 41_frame_sync R110;
log entry 9). -/
def nextEvent (s : State) : Host.Outcome State Fault Refusal :=
  match s.events with
  | [] => .next s
  | e :: rest => onEvent e (withEvents rest s)

end Sys2Proof.Machine
end

