-- ==== Sys2Proof/Machine/Step.lean ====
section
/-! DEFINITION. One step of CORE: the reaction to one event (00_scope R9, R18). -/

namespace Sys2Proof.Machine

/-- One step. A request held on the host's side is accepted as soon as CORE is not in a transfer (41_frame_sync R101; log
entry 10); otherwise CORE reacts to the next event. -/
def step (s : State) : Host.Outcome State Fault Refusal :=
  match readyRequest s with
  | some req => exec (.read req) (takeRequest s)
  | none => nextEvent s

/-- The host presents the READ that a word of the opcode table stands for, so that the next step of a CORE that is not in a
transfer accepts it; a word that is no READ command frame stands for no request (log entry 15). -/
def State.withFetchWord (s : State) (nbits w : Nat) : State :=
  { s with port := (decodeWordFor s.cfg nbits w).map Instr.request }

end Sys2Proof.Machine
end

