-- ==== Sys2Proof/Safety.lean ====
section
/-! DEFINITION. The terms the statements use: the invariants of 10_state R38, the mode transition table (43_read_operation
R142), runs, and scripts of events in which the transport does what 41_frame_sync R107 assumes. -/

namespace Sys2Proof.Machine

/-- `k` steps of the machine. -/
def runSteps (k : Nat) (s : State) : Host.Outcome State Fault Refusal :=
  Host.Core.run Sys2Proof.core k s

/-- The response bytes received so far: positions 0 to `min(IDX, 140) - 1` of `RXF` (10_state R38 c). -/
def received (s : State) : List Byte :=
  s.rxf.bytes 0 (min s.idx.toNat frameLen)

/-- The three result flags are 0. -/
def flagsClear (s : State) : Prop :=
  s.valid = false ∧ s.chkerr = false ∧ s.staterr = false

/-- The invariants of 10_state R38, with the bound of `IDX` (R28) and the canonical form of `RXF`. -/
structure Inv (s : State) : Prop where
  /-- `RXF` keeps its canonical form -/
  rxfWf : s.rxf.wf = true
  /-- `IDX` has the values 0 to 141 (R28) -/
  idxBound : s.idx.toNat ≤ 141
  /-- R38 a -/
  whenIdle : s.mode = .idle → s.err = .none ∧ flagsClear s ∧ s.idx = 0 ∧ s.acc = 0x00
  /-- R38 b -/
  whenXfer : s.mode = .xfer → s.err = .none ∧ flagsClear s ∧ s.addrR.toNat ≤ s.cfg.maxAddr.toNat
  /-- R38 c -/
  accXfer : s.mode = .xfer → s.acc = accumulateAll s.cfg 0 0x00 (received s)
  /-- R38 d -/
  whenDone : s.mode = .done → s.err = .none ∧ s.idx = 140 ∧ s.acc = accumulateAll s.cfg 0 0x00 (received s) ∧
    s.chkerr = chkBad s.acc (s.rxf.read posChk) ∧ s.staterr = statBad s.cfg (s.rxf.read posStat) ∧
    s.valid = (!s.chkerr && !s.staterr)
  /-- R38 e, first half -/
  faultIff : s.mode = .fault ↔ s.err ≠ .none
  /-- R38 e, second half -/
  whenFault : s.mode = .fault → flagsClear s

/-- The transport and the platform keep to the rules from mode `busy` (in a transfer) or not: `RX`, `END`, `FAIL` come
only during a transfer (41_frame_sync R107) and `RESET` only outside one (70_reset R181). `held` says whether a request is
pending on the host's side; `legal` which requests are accepted. -/
def scriptKeepsRules (cfg : Config) : (busy : Bool) → (held : Option Request) → List Event → Bool
  | _, _, [] => true
  | true, _, .start req :: rest => scriptKeepsRules cfg true (some req) rest
  | true, held, .rx _ :: rest => scriptKeepsRules cfg true held rest
  | true, none, .finish :: rest => scriptKeepsRules cfg false none rest
  | true, some req, .finish :: rest => scriptKeepsRules cfg (addrLegal cfg req.addrIn) none rest
  | true, none, .fail _ :: rest => scriptKeepsRules cfg false none rest
  | true, some req, .fail _ :: rest => scriptKeepsRules cfg (addrLegal cfg req.addrIn) none rest
  | true, _, .reset :: _ => false
  | false, _, .start req :: rest => scriptKeepsRules cfg (addrLegal cfg req.addrIn) none rest
  | false, _, .rx _ :: _ => false
  | false, _, .finish :: _ => false
  | false, _, .fail _ :: _ => false
  | false, _, .reset :: rest => scriptKeepsRules cfg false none rest

/-- The other agents keep to the rules from state `s` on: the script as it stands, after the pending request, if CORE is
not in a transfer, is accepted or turned down. -/
def keepsRules (s : State) : Bool :=
  match readyRequest s with
  | some req => scriptKeepsRules s.cfg (addrLegal s.cfg req.addrIn) none s.events
  | none => scriptKeepsRules s.cfg (decide (s.mode = .xfer)) s.port s.events

/-- An event that can end a transfer, or the one that would cut it short. -/
def endsTransfer : Event → Bool
  | .start _ => false
  | .rx _ => false
  | .finish => true
  | .fail _ => true
  | .reset => true

/-- The rows of the mode transition table (43_read_operation R142), with the wait that is no transition. The event is the
one CORE reacts to, with the state before it. -/
inductive ModeChange (s : State) : Event → Mode → Prop where
  | reset : s.mode ≠ .xfer → ModeChange s .reset .idle
  | accepted (req : Request) : s.mode ≠ .xfer → addrLegal s.cfg req.addrIn = true → ModeChange s (.start req) .xfer
  | illegal (req : Request) : s.mode ≠ .xfer → addrLegal s.cfg req.addrIn = false → ModeChange s (.start req) .fault
  | held (req : Request) : s.mode = .xfer → ModeChange s (.start req) .xfer
  | received (b : Byte) : s.mode = .xfer → ModeChange s (.rx b) .xfer
  | wellFormed : s.mode = .xfer → s.idx.toNat = frameLen → ModeChange s .finish .done
  | malformed : s.mode = .xfer → s.idx.toNat ≠ frameLen → ModeChange s .finish .fault
  | failed (c : Cause) : s.mode = .xfer → ModeChange s (.fail c) .fault

/-- The event CORE reacts to in its next step, if any: a held request that is ready, else the first event. -/
def nextReaction (s : State) : Option Event :=
  match readyRequest s with
  | some req => some (.start req)
  | none => s.events.head?

end Sys2Proof.Machine
end

