-- ==== Sys2Proof/Laws/State.lean ====
section
/-! SUPPORT. One lemma per field per update of State, each true by rfl, so that no proof unfolds a record update; and the
frame's constants as numerals. -/

namespace Sys2Proof

/-! ## The constants of 00_scope R6, so that simp and omega meet numerals -/

@[simp] theorem frameLen_eq : frameLen = 140 := rfl
@[simp] theorem hdrLen_eq : hdrLen = 10 := rfl
@[simp] theorem dataLen_eq : dataLen = 128 := rfl
@[simp] theorem posData_eq : posData = 10 := rfl
@[simp] theorem posChk_val : posChk.val = 138 := rfl
@[simp] theorem posStat_val : posStat.val = 139 := rfl
@[simp] theorem padLen_eq : padLen = 134 := rfl

end Sys2Proof

namespace Sys2Proof.Machine

/-! ## error entry (60_exceptions R166) -/

@[simp] theorem raiseError_mode (e : Abort) (s : State) : (raiseError e s).mode = .fault := rfl
@[simp] theorem raiseError_addrR (e : Abort) (s : State) : (raiseError e s).addrR = s.addrR := rfl
@[simp] theorem raiseError_slotR (e : Abort) (s : State) : (raiseError e s).slotR = s.slotR := rfl
@[simp] theorem raiseError_cidR (e : Abort) (s : State) : (raiseError e s).cidR = s.cidR := rfl
@[simp] theorem raiseError_idx (e : Abort) (s : State) : (raiseError e s).idx = s.idx := rfl
@[simp] theorem raiseError_rxf (e : Abort) (s : State) : (raiseError e s).rxf = s.rxf := rfl
@[simp] theorem raiseError_acc (e : Abort) (s : State) : (raiseError e s).acc = s.acc := rfl
@[simp] theorem raiseError_err (e : Abort) (s : State) : (raiseError e s).err = abortCode e := rfl
@[simp] theorem raiseError_cause (e : Abort) (s : State) : (raiseError e s).cause = abortCause s.cause e := rfl
@[simp] theorem raiseError_valid (e : Abort) (s : State) : (raiseError e s).valid = false := rfl
@[simp] theorem raiseError_chkerr (e : Abort) (s : State) : (raiseError e s).chkerr = false := rfl
@[simp] theorem raiseError_staterr (e : Abort) (s : State) : (raiseError e s).staterr = false := rfl
@[simp] theorem raiseError_cfg (e : Abort) (s : State) : (raiseError e s).cfg = s.cfg := rfl
@[simp] theorem raiseError_port (e : Abort) (s : State) : (raiseError e s).port = s.port := rfl
@[simp] theorem raiseError_events (e : Abort) (s : State) : (raiseError e s).events = s.events := rfl

/-! ## the accepting branch of START (41_frame_sync R100) -/

@[simp] theorem acceptRequest_mode (req : Request) (s : State) : (acceptRequest req s).mode = .xfer := rfl
@[simp] theorem acceptRequest_addrR (req : Request) (s : State) : (acceptRequest req s).addrR = addrField req.addrIn := rfl
@[simp] theorem acceptRequest_slotR (req : Request) (s : State) : (acceptRequest req s).slotR = req.slot := rfl
@[simp] theorem acceptRequest_cidR (req : Request) (s : State) : (acceptRequest req s).cidR = cardIdFor s.cfg req := rfl
@[simp] theorem acceptRequest_idx (req : Request) (s : State) : (acceptRequest req s).idx = 0 := rfl
@[simp] theorem acceptRequest_rxf (req : Request) (s : State) : (acceptRequest req s).rxf = s.rxf := rfl
@[simp] theorem acceptRequest_acc (req : Request) (s : State) : (acceptRequest req s).acc = 0x00 := rfl
@[simp] theorem acceptRequest_err (req : Request) (s : State) : (acceptRequest req s).err = .none := rfl
@[simp] theorem acceptRequest_cause (req : Request) (s : State) : (acceptRequest req s).cause = s.cause := rfl
@[simp] theorem acceptRequest_valid (req : Request) (s : State) : (acceptRequest req s).valid = false := rfl
@[simp] theorem acceptRequest_chkerr (req : Request) (s : State) : (acceptRequest req s).chkerr = false := rfl
@[simp] theorem acceptRequest_staterr (req : Request) (s : State) : (acceptRequest req s).staterr = false := rfl
@[simp] theorem acceptRequest_cfg (req : Request) (s : State) : (acceptRequest req s).cfg = s.cfg := rfl
@[simp] theorem acceptRequest_port (req : Request) (s : State) : (acceptRequest req s).port = s.port := rfl
@[simp] theorem acceptRequest_events (req : Request) (s : State) : (acceptRequest req s).events = s.events := rfl

/-! ## XCHG (41_frame_sync R103) -/

@[simp] theorem xchg_mode (i : RxPos) (b : Byte) (s : State) : (xchg i b s).mode = s.mode := rfl
@[simp] theorem xchg_addrR (i : RxPos) (b : Byte) (s : State) : (xchg i b s).addrR = s.addrR := rfl
@[simp] theorem xchg_slotR (i : RxPos) (b : Byte) (s : State) : (xchg i b s).slotR = s.slotR := rfl
@[simp] theorem xchg_cidR (i : RxPos) (b : Byte) (s : State) : (xchg i b s).cidR = s.cidR := rfl
@[simp] theorem xchg_idx (i : RxPos) (b : Byte) (s : State) : (xchg i b s).idx = s.idx + 1 := rfl
@[simp] theorem xchg_rxf (i : RxPos) (b : Byte) (s : State) : (xchg i b s).rxf = s.rxf.write i b := rfl
@[simp] theorem xchg_acc (i : RxPos) (b : Byte) (s : State) : (xchg i b s).acc = accumulate s.cfg i.val s.acc b := rfl
@[simp] theorem xchg_err (i : RxPos) (b : Byte) (s : State) : (xchg i b s).err = s.err := rfl
@[simp] theorem xchg_cause (i : RxPos) (b : Byte) (s : State) : (xchg i b s).cause = s.cause := rfl
@[simp] theorem xchg_valid (i : RxPos) (b : Byte) (s : State) : (xchg i b s).valid = s.valid := rfl
@[simp] theorem xchg_chkerr (i : RxPos) (b : Byte) (s : State) : (xchg i b s).chkerr = s.chkerr := rfl
@[simp] theorem xchg_staterr (i : RxPos) (b : Byte) (s : State) : (xchg i b s).staterr = s.staterr := rfl
@[simp] theorem xchg_cfg (i : RxPos) (b : Byte) (s : State) : (xchg i b s).cfg = s.cfg := rfl
@[simp] theorem xchg_port (i : RxPos) (b : Byte) (s : State) : (xchg i b s).port = s.port := rfl
@[simp] theorem xchg_events (i : RxPos) (b : Byte) (s : State) : (xchg i b s).events = s.events := rfl

/-! ## EXTRA (41_frame_sync R104) -/

@[simp] theorem extra_mode (s : State) : (extra s).mode = s.mode := rfl
@[simp] theorem extra_addrR (s : State) : (extra s).addrR = s.addrR := rfl
@[simp] theorem extra_slotR (s : State) : (extra s).slotR = s.slotR := rfl
@[simp] theorem extra_cidR (s : State) : (extra s).cidR = s.cidR := rfl
@[simp] theorem extra_idx (s : State) : (extra s).idx = 141 := rfl
@[simp] theorem extra_rxf (s : State) : (extra s).rxf = s.rxf := rfl
@[simp] theorem extra_acc (s : State) : (extra s).acc = s.acc := rfl
@[simp] theorem extra_err (s : State) : (extra s).err = s.err := rfl
@[simp] theorem extra_cause (s : State) : (extra s).cause = s.cause := rfl
@[simp] theorem extra_valid (s : State) : (extra s).valid = s.valid := rfl
@[simp] theorem extra_chkerr (s : State) : (extra s).chkerr = s.chkerr := rfl
@[simp] theorem extra_staterr (s : State) : (extra s).staterr = s.staterr := rfl
@[simp] theorem extra_cfg (s : State) : (extra s).cfg = s.cfg := rfl
@[simp] theorem extra_port (s : State) : (extra s).port = s.port := rfl
@[simp] theorem extra_events (s : State) : (extra s).events = s.events := rfl

/-! ## PARSE and the entry into DONE (42_response_parser R125) -/

@[simp] theorem deliver_mode (checksum status : Byte) (s : State) : (deliver checksum status s).mode = .done := rfl
@[simp] theorem deliver_addrR (checksum status : Byte) (s : State) : (deliver checksum status s).addrR = s.addrR := rfl
@[simp] theorem deliver_slotR (checksum status : Byte) (s : State) : (deliver checksum status s).slotR = s.slotR := rfl
@[simp] theorem deliver_cidR (checksum status : Byte) (s : State) : (deliver checksum status s).cidR = s.cidR := rfl
@[simp] theorem deliver_idx (checksum status : Byte) (s : State) : (deliver checksum status s).idx = s.idx := rfl
@[simp] theorem deliver_rxf (checksum status : Byte) (s : State) : (deliver checksum status s).rxf = s.rxf := rfl
@[simp] theorem deliver_acc (checksum status : Byte) (s : State) : (deliver checksum status s).acc = s.acc := rfl
@[simp] theorem deliver_err (checksum status : Byte) (s : State) : (deliver checksum status s).err = s.err := rfl
@[simp] theorem deliver_cause (checksum status : Byte) (s : State) : (deliver checksum status s).cause = s.cause := rfl
@[simp] theorem deliver_valid (checksum status : Byte) (s : State) : (deliver checksum status s).valid = validResult (chkBad s.acc checksum) (statBad s.cfg status) := rfl
@[simp] theorem deliver_chkerr (checksum status : Byte) (s : State) : (deliver checksum status s).chkerr = chkBad s.acc checksum := rfl
@[simp] theorem deliver_staterr (checksum status : Byte) (s : State) : (deliver checksum status s).staterr = statBad s.cfg status := rfl
@[simp] theorem deliver_cfg (checksum status : Byte) (s : State) : (deliver checksum status s).cfg = s.cfg := rfl
@[simp] theorem deliver_port (checksum status : Byte) (s : State) : (deliver checksum status s).port = s.port := rfl
@[simp] theorem deliver_events (checksum status : Byte) (s : State) : (deliver checksum status s).events = s.events := rfl

/-! ## RESET (70_reset R180; log entries 6 and 7) -/

@[simp] theorem resetCore_mode (s : State) : (resetCore s).mode = .idle := rfl
@[simp] theorem resetCore_addrR (s : State) : (resetCore s).addrR = 0x0000 := rfl
@[simp] theorem resetCore_slotR (s : State) : (resetCore s).slotR = .slot1 := rfl
@[simp] theorem resetCore_cidR (s : State) : (resetCore s).cidR = ⟨0x00, 0x00⟩ := rfl
@[simp] theorem resetCore_idx (s : State) : (resetCore s).idx = 0 := rfl
@[simp] theorem resetCore_rxf (s : State) : (resetCore s).rxf = ⟨[]⟩ := rfl
@[simp] theorem resetCore_acc (s : State) : (resetCore s).acc = 0x00 := rfl
@[simp] theorem resetCore_err (s : State) : (resetCore s).err = .none := rfl
@[simp] theorem resetCore_cause (s : State) : (resetCore s).cause = ⟨0⟩ := rfl
@[simp] theorem resetCore_valid (s : State) : (resetCore s).valid = false := rfl
@[simp] theorem resetCore_chkerr (s : State) : (resetCore s).chkerr = false := rfl
@[simp] theorem resetCore_staterr (s : State) : (resetCore s).staterr = false := rfl
@[simp] theorem resetCore_cfg (s : State) : (resetCore s).cfg = s.cfg := rfl
@[simp] theorem resetCore_port (s : State) : (resetCore s).port = s.port := rfl
@[simp] theorem resetCore_events (s : State) : (resetCore s).events = s.events := rfl

/-! ## a held request (41_frame_sync R101) -/

@[simp] theorem holdRequest_mode (req : Request) (s : State) : (holdRequest req s).mode = s.mode := rfl
@[simp] theorem holdRequest_addrR (req : Request) (s : State) : (holdRequest req s).addrR = s.addrR := rfl
@[simp] theorem holdRequest_slotR (req : Request) (s : State) : (holdRequest req s).slotR = s.slotR := rfl
@[simp] theorem holdRequest_cidR (req : Request) (s : State) : (holdRequest req s).cidR = s.cidR := rfl
@[simp] theorem holdRequest_idx (req : Request) (s : State) : (holdRequest req s).idx = s.idx := rfl
@[simp] theorem holdRequest_rxf (req : Request) (s : State) : (holdRequest req s).rxf = s.rxf := rfl
@[simp] theorem holdRequest_acc (req : Request) (s : State) : (holdRequest req s).acc = s.acc := rfl
@[simp] theorem holdRequest_err (req : Request) (s : State) : (holdRequest req s).err = s.err := rfl
@[simp] theorem holdRequest_cause (req : Request) (s : State) : (holdRequest req s).cause = s.cause := rfl
@[simp] theorem holdRequest_valid (req : Request) (s : State) : (holdRequest req s).valid = s.valid := rfl
@[simp] theorem holdRequest_chkerr (req : Request) (s : State) : (holdRequest req s).chkerr = s.chkerr := rfl
@[simp] theorem holdRequest_staterr (req : Request) (s : State) : (holdRequest req s).staterr = s.staterr := rfl
@[simp] theorem holdRequest_cfg (req : Request) (s : State) : (holdRequest req s).cfg = s.cfg := rfl
@[simp] theorem holdRequest_port (req : Request) (s : State) : (holdRequest req s).port = some req := rfl
@[simp] theorem holdRequest_events (req : Request) (s : State) : (holdRequest req s).events = s.events := rfl

/-! ## a request taken off the port -/

@[simp] theorem takeRequest_mode (s : State) : (takeRequest s).mode = s.mode := rfl
@[simp] theorem takeRequest_addrR (s : State) : (takeRequest s).addrR = s.addrR := rfl
@[simp] theorem takeRequest_slotR (s : State) : (takeRequest s).slotR = s.slotR := rfl
@[simp] theorem takeRequest_cidR (s : State) : (takeRequest s).cidR = s.cidR := rfl
@[simp] theorem takeRequest_idx (s : State) : (takeRequest s).idx = s.idx := rfl
@[simp] theorem takeRequest_rxf (s : State) : (takeRequest s).rxf = s.rxf := rfl
@[simp] theorem takeRequest_acc (s : State) : (takeRequest s).acc = s.acc := rfl
@[simp] theorem takeRequest_err (s : State) : (takeRequest s).err = s.err := rfl
@[simp] theorem takeRequest_cause (s : State) : (takeRequest s).cause = s.cause := rfl
@[simp] theorem takeRequest_valid (s : State) : (takeRequest s).valid = s.valid := rfl
@[simp] theorem takeRequest_chkerr (s : State) : (takeRequest s).chkerr = s.chkerr := rfl
@[simp] theorem takeRequest_staterr (s : State) : (takeRequest s).staterr = s.staterr := rfl
@[simp] theorem takeRequest_cfg (s : State) : (takeRequest s).cfg = s.cfg := rfl
@[simp] theorem takeRequest_port (s : State) : (takeRequest s).port = none := rfl
@[simp] theorem takeRequest_events (s : State) : (takeRequest s).events = s.events := rfl

/-! ## the event being reacted to is gone -/

@[simp] theorem withEvents_mode (rest : List Event) (s : State) : (withEvents rest s).mode = s.mode := rfl
@[simp] theorem withEvents_addrR (rest : List Event) (s : State) : (withEvents rest s).addrR = s.addrR := rfl
@[simp] theorem withEvents_slotR (rest : List Event) (s : State) : (withEvents rest s).slotR = s.slotR := rfl
@[simp] theorem withEvents_cidR (rest : List Event) (s : State) : (withEvents rest s).cidR = s.cidR := rfl
@[simp] theorem withEvents_idx (rest : List Event) (s : State) : (withEvents rest s).idx = s.idx := rfl
@[simp] theorem withEvents_rxf (rest : List Event) (s : State) : (withEvents rest s).rxf = s.rxf := rfl
@[simp] theorem withEvents_acc (rest : List Event) (s : State) : (withEvents rest s).acc = s.acc := rfl
@[simp] theorem withEvents_err (rest : List Event) (s : State) : (withEvents rest s).err = s.err := rfl
@[simp] theorem withEvents_cause (rest : List Event) (s : State) : (withEvents rest s).cause = s.cause := rfl
@[simp] theorem withEvents_valid (rest : List Event) (s : State) : (withEvents rest s).valid = s.valid := rfl
@[simp] theorem withEvents_chkerr (rest : List Event) (s : State) : (withEvents rest s).chkerr = s.chkerr := rfl
@[simp] theorem withEvents_staterr (rest : List Event) (s : State) : (withEvents rest s).staterr = s.staterr := rfl
@[simp] theorem withEvents_cfg (rest : List Event) (s : State) : (withEvents rest s).cfg = s.cfg := rfl
@[simp] theorem withEvents_port (rest : List Event) (s : State) : (withEvents rest s).port = s.port := rfl
@[simp] theorem withEvents_events (rest : List Event) (s : State) : (withEvents rest s).events = rest := rfl

end Sys2Proof.Machine
end

