-- ==== Sys2Proof/Laws/Memory.lean ====
section
/-! SUPPORT. The laws of the receive buffer RXF: the canonical form is kept and is canonical, a read after a write, and the
bytes of a range. -/

namespace Sys2Proof.Machine

/-! ## Cells -/

/-- The parts of the canonical form of a first cell. -/
theorem cellsFrom_cons {lo k : Nat} {v : Byte} {rest : List Host.Cell} :
    cellsFrom lo ((k, v) :: rest) = true ↔ lo ≤ k ∧ k < frameLen ∧ v ≠ unlistedByte ∧ cellsFrom (k + 1) rest = true := by
  simp only [cellsFrom, Bool.and_eq_true, decide_eq_true_eq]
  tauto

theorem cellsFrom_mono {lo lo' : Nat} (hle : lo' ≤ lo) {cs : List Host.Cell} (h : cellsFrom lo cs = true) :
    cellsFrom lo' cs = true := by
  cases cs with
  | nil => rfl
  | cons c rest =>
    obtain ⟨h1, h2⟩ := cellsFrom_cons.mp h
    exact cellsFrom_cons.mpr ⟨hle.trans h1, h2⟩

/-- A position below all listed ones holds the unlisted byte. -/
theorem cellByte_below {pos lo : Nat} : ∀ {cs : List Host.Cell}, cellsFrom lo cs = true → pos < lo →
    cellByte pos cs = unlistedByte
  | [], _, _ => rfl
  | (k, v) :: rest, h, hlt => by
    obtain ⟨h1, -, -, h4⟩ := cellsFrom_cons.mp h
    simp only [cellByte, if_neg (show k ≠ pos by omega)]
    exact cellByte_below h4 (by omega)

theorem eraseCell_cellsFrom {pos : Nat} : ∀ {lo : Nat} {cs : List Host.Cell}, cellsFrom lo cs = true →
    cellsFrom lo (eraseCell pos cs) = true
  | _, [], _ => rfl
  | lo, (k, v) :: rest, h => by
    obtain ⟨h1, h2, h3, h4⟩ := cellsFrom_cons.mp h
    have ih := eraseCell_cellsFrom (pos := pos) h4
    rw [eraseCell, List.filter_cons]
    split
    · exact cellsFrom_cons.mpr ⟨h1, h2, h3, ih⟩
    · exact cellsFrom_mono (by omega) ih

theorem not_mem_eraseCell {pos : Nat} {cs : List Host.Cell} : ∀ c ∈ eraseCell pos cs, c.1 ≠ pos := by
  simp [eraseCell]

theorem insertCell_cellsFrom {pos : Nat} {b : Byte} (hpos : pos < frameLen) (hb : b ≠ unlistedByte) :
    ∀ {lo : Nat} {cs : List Host.Cell}, lo ≤ pos → (∀ c ∈ cs, c.1 ≠ pos) → cellsFrom lo cs = true →
      cellsFrom lo (insertCell pos b cs) = true
  | _, [], hlo, _, _ => cellsFrom_cons.mpr ⟨hlo, hpos, hb, rfl⟩
  | lo, (k, v) :: rest, hlo, hne, h => by
    obtain ⟨h1, h2, h3, h4⟩ := cellsFrom_cons.mp h
    have hk : k ≠ pos := hne (k, v) (by simp)
    unfold insertCell
    split
    · next hlt => exact cellsFrom_cons.mpr ⟨hlo, hpos, hb, cellsFrom_cons.mpr ⟨hlt, h2, h3, h4⟩⟩
    · exact cellsFrom_cons.mpr ⟨h1, h2, h3,
        insertCell_cellsFrom hpos hb (by omega) (fun c hc => hne c (List.mem_cons_of_mem _ hc)) h4⟩

theorem setCell_cellsFrom {pos : Nat} {b : Byte} {cs : List Host.Cell} (hpos : pos < frameLen)
    (h : cellsFrom 0 cs = true) : cellsFrom 0 (setCell pos b cs) = true := by
  unfold setCell
  split
  · exact eraseCell_cellsFrom h
  · next hb => exact insertCell_cellsFrom hpos hb (Nat.zero_le _) not_mem_eraseCell (eraseCell_cellsFrom h)

theorem cellByte_eraseCell (pos p : Nat) : ∀ cs : List Host.Cell,
    cellByte p (eraseCell pos cs) = if p = pos then unlistedByte else cellByte p cs
  | [] => by simp [eraseCell, cellByte]
  | (k, v) :: rest => by
    have ih := cellByte_eraseCell pos p rest
    rw [eraseCell, List.filter_cons]
    split
    · next hk =>
      have hk' : k ≠ pos := by simpa using hk
      rw [cellByte, cellByte, ← eraseCell, ih]
      by_cases hp : p = pos
      · simp [hp, hk']
      · simp [hp]
    · next hk =>
      have hk' : k = pos := by simpa using hk
      rw [cellByte, ← eraseCell, ih]
      by_cases hp : p = pos
      · simp [hp]
      · simp [hp, hk', Ne.symm hp]

theorem cellByte_insertCell (pos p : Nat) (b : Byte) : ∀ {cs : List Host.Cell}, (∀ c ∈ cs, c.1 ≠ pos) →
    cellByte p (insertCell pos b cs) = if p = pos then b else cellByte p cs
  | [], _ => by simp only [insertCell, cellByte, eq_comm]
  | (k, v) :: rest, hne => by
    have hk : k ≠ pos := hne (k, v) (by simp)
    unfold insertCell
    split
    · rw [cellByte]; simp only [eq_comm]
    · rw [cellByte, cellByte, cellByte_insertCell pos p b fun c hc => hne c (List.mem_cons_of_mem _ hc)]
      by_cases hp : p = pos
      · simp [hp, hk]
      · simp [hp]

/-- A read after a write, of cells in whatever order. -/
theorem cellByte_setCell (pos p : Nat) (b : Byte) (cs : List Host.Cell) :
    cellByte p (setCell pos b cs) = if p = pos then b else cellByte p cs := by
  unfold setCell
  split
  · next hb => rw [cellByte_eraseCell, hb]
  · rw [cellByte_insertCell pos p b not_mem_eraseCell, cellByte_eraseCell]
    split <;> rfl

/-- Canonical cells that say the same are the same. -/
theorem cells_ext : ∀ {lo : Nat} {cs cs' : List Host.Cell}, cellsFrom lo cs = true → cellsFrom lo cs' = true →
    (∀ p, cellByte p cs = cellByte p cs') → cs = cs'
  | _, [], [], _, _, _ => rfl
  | _, [], (k, v) :: rest, _, h', hp => by
    have hv := (cellsFrom_cons.mp h').2.2.1
    exact absurd (by simpa [cellByte] using (hp k).symm) hv
  | _, (k, v) :: rest, [], h, _, hp => by
    have hv := (cellsFrom_cons.mp h).2.2.1
    exact absurd (by simpa [cellByte] using hp k) hv
  | _, (k, v) :: rest, (k', v') :: rest', h, h', hp => by
    obtain ⟨-, a2, a3, a4⟩ := cellsFrom_cons.mp h
    obtain ⟨-, b2, b3, b4⟩ := cellsFrom_cons.mp h'
    have hk : k = k' := by
      rcases Nat.lt_trichotomy k k' with hlt | heq | hgt
      · have := hp k
        rw [cellByte_below (cellsFrom_cons.mpr ⟨le_refl k', b2, b3, b4⟩) hlt] at this
        exact absurd (by simpa [cellByte] using this) a3
      · exact heq
      · have := hp k'
        rw [cellByte_below (cellsFrom_cons.mpr ⟨le_refl k, a2, a3, a4⟩) hgt] at this
        exact absurd (by simpa [cellByte] using this.symm) b3
    subst hk
    have hv : v = v' := by simpa [cellByte] using hp k
    subst hv
    rw [cells_ext a4 b4 fun p => ?_]
    by_cases hpk : k = p
    · subst hpk; rw [cellByte_below a4 (Nat.lt_succ_self k), cellByte_below b4 (Nat.lt_succ_self k)]
    · simpa [cellByte, hpk] using hp p

/-! ## The buffer -/

/-- Every write keeps the canonical form. -/
theorem Memory.write_wf {m : Memory} (pos : RxPos) (b : Byte) (hm : m.wf = true) : (m.write pos b).wf = true :=
  setCell_cellsFrom pos.isLt hm

/-- A read after a write: the byte written at its position, every other position as before. -/
theorem Memory.read_write (m : Memory) (pos p : RxPos) (b : Byte) :
    (m.write pos b).read p = if p = pos then b else m.read p := by
  simp only [Memory.read, Memory.write, cellByte_setCell, Fin.ext_iff]

/-- The reset buffer has the canonical form. -/
theorem Memory.empty_wf : Memory.wf ⟨[]⟩ = true := rfl

/-- After reset every position holds the unlisted byte (log entry 7). -/
@[simp] theorem Memory.read_empty (pos : RxPos) : Memory.read ⟨[]⟩ pos = unlistedByte := rfl

/-- A canonical buffer lists no position above 139. -/
theorem cellByte_beyond {pos : Nat} (hpos : frameLen ≤ pos) : ∀ {lo : Nat} {cs : List Host.Cell}, cellsFrom lo cs = true →
    cellByte pos cs = unlistedByte
  | _, [], _ => rfl
  | _, (k, v) :: rest, h => by
    obtain ⟨-, h2, -, h4⟩ := cellsFrom_cons.mp h
    simp only [cellByte, if_neg (show k ≠ pos by omega)]
    exact cellByte_beyond hpos h4

/-- Equal buffers are equal data: two canonical buffers that read the same at all 140 positions are the same. -/
theorem Memory.ext_read {m m' : Memory} (hm : m.wf = true) (hm' : m'.wf = true) (h : ∀ pos, m.read pos = m'.read pos) :
    m = m' := by
  cases m; cases m'
  congr 1
  refine cells_ext hm hm' fun p => ?_
  by_cases hp : p < frameLen
  · exact h ⟨p, hp⟩
  · rw [cellByte_beyond (Nat.not_lt.mp hp) hm, cellByte_beyond (Nat.not_lt.mp hp) hm']

@[simp] theorem Memory.bytes_length (m : Memory) (pos n : Nat) : (m.bytes pos n).length = n := by
  simp [Memory.bytes]

/-- A byte of a range. -/
theorem Memory.bytes_getElem (m : Memory) (pos n k : Nat) (hk : k < (m.bytes pos n).length) :
    (m.bytes pos n)[k] = cellByte (pos + k) m.cells := by
  simp [Memory.bytes]

/-- What a range says of one of its positions. -/
theorem Memory.read_of_bytes {m : Memory} {r : List Byte} {n : Nat} (h : m.bytes 0 n = r) (pos : RxPos)
    (hk : pos.val < r.length) : m.read pos = r[pos.val] := by
  subst h
  simp [Memory.bytes_getElem, Memory.read]

/-- The next byte written extends the range by one. -/
theorem Memory.bytes_write (m : Memory) (i : RxPos) (b : Byte) :
    (m.write i b).bytes 0 (i.val + 1) = m.bytes 0 i.val ++ [b] := by
  simp only [Memory.bytes, List.range_succ, List.map_append, List.map_cons, List.map_nil, Nat.zero_add, Memory.write,
    cellByte_setCell, if_true]
  congr 1
  refine List.map_congr_left fun k hk => ?_
  have hk' := List.mem_range.mp hk
  rw [if_neg (by omega)]

/-- A range of a range. -/
theorem Memory.bytes_drop_take (m : Memory) (n pos k : Nat) (h : pos + k ≤ n) :
    ((m.bytes 0 n).drop pos).take k = m.bytes pos k := by
  apply List.ext_getElem
  · simp; omega
  · intro i h1 h2
    simp [Memory.bytes_getElem]

end Sys2Proof.Machine
end

