-- ==== Sys2Proof/Laws/Ops.lean ====
section
/-! SUPPORT. One lemma per shared operation: everything it can do; and the inversion of one step (`step_cases`), from which
the invariants follow. -/

namespace Sys2Proof.Machine

/-! ## Operands and checksum -/

theorem addrLegal_iff {cfg : Config} {a : Nat} : addrLegal cfg a = true ↔ a ≤ 65535 ∧ a ≤ cfg.maxAddr.toNat := by
  simp [addrLegal]

theorem addrField_toNat {a : Nat} (h : a ≤ 65535) : (addrField a).toNat = a := by
  simp [addrField]; omega

theorem addrOfBytes_msb_lsb (a : SectorAddr) : addrOfBytes (addrMsb a) (addrLsb a) = a := by
  apply BitVec.eq_of_getLsbD_eq
  intro i hi
  simp only [addrOfBytes, addrMsb, addrLsb, BitVec.getLsbD_append, BitVec.getLsbD_extractLsb']
  by_cases h : i < 8
  · simp [h]
  · simp [h, show i - 8 < 8 by omega, show 8 + (i - 8) = i by omega]

theorem addrMsb_addrOfBytes (m l : Byte) : addrMsb (addrOfBytes m l) = m := by
  apply BitVec.eq_of_getLsbD_eq
  intro i hi
  simp only [addrOfBytes, addrMsb, BitVec.getLsbD_extractLsb', BitVec.getLsbD_append]
  simp [hi]

theorem addrLsb_addrOfBytes (m l : Byte) : addrLsb (addrOfBytes m l) = l := by
  apply BitVec.eq_of_getLsbD_eq
  intro i hi
  simp only [addrOfBytes, addrLsb, BitVec.getLsbD_extractLsb', BitVec.getLsbD_append]
  simp [hi]

/-- The accumulator after one more byte. -/
theorem accumulateAll_append (cfg : Config) (b : Byte) :
    ∀ (i : Nat) (acc : Byte) (bs : List Byte),
      accumulateAll cfg i acc (bs ++ [b]) = accumulate cfg (i + bs.length) (accumulateAll cfg i acc bs) b
  | _, _, [] => rfl
  | i, acc, c :: bs => by
    simp only [List.cons_append, accumulateAll, List.length_cons]
    rw [accumulateAll_append cfg b, show i + 1 + bs.length = i + (bs.length + 1) by omega]

/-! ## The transfer's operations -/

/-- START in a mode other than XFER (41_frame_sync R100). -/
theorem start_cases (req : Request) (s : State) :
    (addrLegal s.cfg req.addrIn = true ∧ start req s = acceptRequest req s) ∨
      (addrLegal s.cfg req.addrIn = false ∧ start req s = raiseError .invalidAddress s) := by
  unfold start
  split
  · next h => exact .inl ⟨h, rfl⟩
  · next h => exact .inr ⟨by simpa using h, rfl⟩

/-- Inside the frame RX is XCHG (41_frame_sync R103). -/
theorem receive_inside {s : State} (b : Byte) (h : s.idx.toNat < frameLen) :
    receive b s = xchg ⟨s.idx.toNat, h⟩ b s :=
  dif_pos h

/-- Beyond the frame RX is EXTRA (41_frame_sync R104). -/
theorem receive_beyond {s : State} (b : Byte) (h : ¬ s.idx.toNat < frameLen) : receive b s = extra s :=
  dif_neg h

/-- END with a count other than 140 (41_frame_sync R105; 60_exceptions R163). -/
theorem endTransfer_malformed {s : State} (h : s.idx.toNat ≠ frameLen) :
    endTransfer s = raiseError .malformedResponse s :=
  if_pos h

/-- END with the count 140 (42_response_parser R125). -/
theorem endTransfer_parse {s : State} (h : s.idx.toNat = frameLen) :
    endTransfer s = deliver (s.rxf.read posChk) (s.rxf.read posStat) s :=
  if_neg (not_not_intro h)

/-! ## READ, the events and the step -/

/-- READ in mode XFER is held (41_frame_sync R101). -/
theorem exec_read_busy {s : State} (req : Request) (h : s.mode = .xfer) :
    exec (.read req) s = .next (holdRequest req s) := by
  simp [exec, execRead, h]

/-- READ in a mode other than XFER is START (41_frame_sync R100). -/
theorem exec_read_ready {s : State} (req : Request) (h : s.mode ≠ .xfer) :
    exec (.read req) s = .next (start req s) := by
  simp [exec, execRead, h]

/-- One step that answers a next state is one of: the acceptance of a held request; a wait; or the reaction to the first
event, one of the eight rows of 43_read_operation R142 or a held START. -/
inductive StepCase (s : State) : State → Prop where
  | ready (req : Request) (hm : s.mode ≠ .xfer) (hp : s.port = some req) : StepCase s (start req (takeRequest s))
  | wait (he : s.events = []) (hr : readyRequest s = none) : StepCase s s
  | started (req : Request) (rest : List Event) (he : s.events = .start req :: rest) (hr : readyRequest s = none)
      (hm : s.mode ≠ .xfer) : StepCase s (start req (withEvents rest s))
  | held (req : Request) (rest : List Event) (he : s.events = .start req :: rest) (hr : readyRequest s = none)
      (hm : s.mode = .xfer) : StepCase s (holdRequest req (withEvents rest s))
  | exchange (b : Byte) (rest : List Event) (he : s.events = .rx b :: rest) (hr : readyRequest s = none)
      (hm : s.mode = .xfer) (hi : s.idx.toNat < frameLen) : StepCase s (xchg ⟨s.idx.toNat, hi⟩ b (withEvents rest s))
  | beyond (b : Byte) (rest : List Event) (he : s.events = .rx b :: rest) (hr : readyRequest s = none)
      (hm : s.mode = .xfer) (hi : ¬ s.idx.toNat < frameLen) : StepCase s (extra (withEvents rest s))
  | malformed (rest : List Event) (he : s.events = .finish :: rest) (hr : readyRequest s = none) (hm : s.mode = .xfer)
      (hi : s.idx.toNat ≠ frameLen) : StepCase s (raiseError .malformedResponse (withEvents rest s))
  | delivered (rest : List Event) (he : s.events = .finish :: rest) (hr : readyRequest s = none) (hm : s.mode = .xfer)
      (hi : s.idx.toNat = frameLen) :
      StepCase s (deliver (s.rxf.read posChk) (s.rxf.read posStat) (withEvents rest s))
  | failed (c : Cause) (rest : List Event) (he : s.events = .fail c :: rest) (hr : readyRequest s = none)
      (hm : s.mode = .xfer) : StepCase s (raiseError (.transportError c) (withEvents rest s))
  | cleared (rest : List Event) (he : s.events = .reset :: rest) (hr : readyRequest s = none) (hm : s.mode ≠ .xfer) :
      StepCase s (resetCore (withEvents rest s))

/-- A request is ready exactly when one is pending and CORE is not in a transfer. -/
theorem readyRequest_eq_some {s : State} {req : Request} :
    readyRequest s = some req ↔ s.mode ≠ .xfer ∧ s.port = some req := by
  unfold readyRequest; split <;> simp_all

/-- The step of a ready request. -/
theorem step_ready {s : State} {req : Request} (h : readyRequest s = some req) :
    step s = .next (start req (takeRequest s)) := by
  have hm := (readyRequest_eq_some.mp h).1
  unfold step
  rw [h]
  exact exec_read_ready req hm

/-- The step of the first event. -/
theorem step_event {s : State} {e : Event} {rest : List Event} (hr : readyRequest s = none) (he : s.events = e :: rest) :
    step s = onEvent e (withEvents rest s) := by
  unfold step nextEvent
  rw [hr, he]

/-- The step with nothing to react to. -/
theorem step_wait {s : State} (hr : readyRequest s = none) (he : s.events = []) : step s = .next s := by
  unfold step nextEvent
  rw [hr, he]

theorem readyRequest_busy {s : State} (h : s.mode = .xfer) : readyRequest s = none := by
  simp [readyRequest, h]

/-- The inversion of one step. -/
theorem step_cases {s t : State} (h : step s = .next t) : StepCase s t := by
  cases hr : readyRequest s with
  | some req =>
    obtain ⟨hm, hp⟩ := readyRequest_eq_some.mp hr
    rw [step_ready hr] at h; cases h
    exact .ready req hm hp
  | none =>
    cases he : s.events with
    | nil => rw [step_wait hr he] at h; cases h; exact .wait he hr
    | cons e rest =>
      rw [step_event hr he] at h
      by_cases hm : s.mode = .xfer
      · cases e with
        | start req => rw [onEvent, exec_read_busy req (s := withEvents rest s) hm] at h; cases h; exact .held req rest he hr hm
        | rx b =>
          simp only [onEvent, duringTransfer, withEvents_mode, hm, if_true] at h
          cases h
          by_cases hi : s.idx.toNat < frameLen
          · rw [receive_inside (s := withEvents rest s) b hi]; exact .exchange b rest he hr hm hi
          · rw [receive_beyond (s := withEvents rest s) b hi]; exact .beyond b rest he hr hm hi
        | finish =>
          simp only [onEvent, duringTransfer, withEvents_mode, hm, if_true] at h
          cases h
          by_cases hi : s.idx.toNat = frameLen
          · rw [endTransfer_parse (s := withEvents rest s) hi]; exact .delivered rest he hr hm hi
          · rw [endTransfer_malformed (s := withEvents rest s) hi]; exact .malformed rest he hr hm hi
        | fail c =>
          simp only [onEvent, duringTransfer, withEvents_mode, hm, if_true] at h
          cases h; exact .failed c rest he hr hm
        | reset => simp [onEvent, onReset, hm] at h
      · cases e with
        | start req => rw [onEvent, exec_read_ready req (s := withEvents rest s) hm] at h; cases h; exact .started req rest he hr hm
        | rx b => simp [onEvent, duringTransfer, hm] at h
        | finish => simp [onEvent, duringTransfer, hm] at h
        | fail c => simp [onEvent, duringTransfer, hm] at h
        | reset => simp only [onEvent, onReset, withEvents_mode, hm, if_false] at h; cases h; exact .cleared rest he hr hm

/-! ## Runs -/

@[simp] theorem runSteps_zero (s : State) : runSteps 0 s = .next s := rfl

/-- A run goes on from the state its first step answers. -/
theorem runSteps_succ {s t : State} (k : Nat) (h : step s = .next t) : runSteps (k + 1) s = runSteps k t := by
  simp only [runSteps, Host.Core.run]
  rw [show Host.Core.step Sys2Proof.core s = .next t from h]

end Sys2Proof.Machine
end

