-- ==== Sys2Proof/Certificates/Slice0/Obligations.lean ====
section
/-! DEFINITION. The statements for the provers, from the numbered rules of spec/. -/

open Sys2Proof Sys2Proof.Machine

/-! ## Encoding -/

/-- 30_encoding R70, R71 and vectors B5, B8 of 95_test_vectors: command frames written out decode to the READ they stand for,
and a frame with another command code, or one byte short, is rejected by name. (That the slot reads as slot 1 and the pair as
an override is the model's choice, log entry 13; that position 0 is bits 7..0 of a word of the opcode table, in the third
clause, is the model's reading, log entry 14: R78 gives the row as digits and numbers no bits.) -/
def Obligations.WrittenFramesDecode : Prop :=
  decode Config.defaults ([0x81, 0x52, 0x00, 0x00, 0x12, 0x34] ++ List.replicate 134 0x00) =
      .ok (.read ⟨0x1234, .slot1, some ⟨0x00, 0x00⟩⟩) ∧
    decode Config.defaults ([0x81, 0x52, 0x11, 0x22, 0x03, 0xFF] ++ List.replicate 134 0x00) =
      .ok (.read ⟨0x03FF, .slot1, some ⟨0x11, 0x22⟩⟩) ∧
    decodeTableWord 1120 0x3F0000005281 = some (.read ⟨0x003F, .slot1, some ⟨0x00, 0x00⟩⟩) ∧
    decode Config.defaults ([0x81, 0x57, 0x00, 0x00, 0x12, 0x34] ++ List.replicate 134 0x00) = .error (.notReadCommand 0x57) ∧
    decode Config.defaults ([0x81, 0x52, 0x00, 0x00, 0x12, 0x34] ++ List.replicate 133 0x00) = .error (.wrongLength 139)

/-- 30_encoding R70 to R74: for every parameter value and every READ whose address has 16 bits, decoding its command frame
gives the READ with the operands the frame holds, and the same READ where the frame holds them all. -/
def Obligations.DecodeInvertsEncode : Prop :=
  (∀ (cfg : Config) (req : Request), req.addrIn ≤ 65535 →
      decode cfg (encode cfg (.read req)) = .ok (.read ⟨req.addrIn, .slot1, some (cardIdFor cfg req)⟩)) ∧
    ∀ (cfg : Config) (i : Instr), i.frameForm = true → decode cfg (encode cfg i) = .ok i

/-- 30_encoding R70, R71: a byte sequence that decodes is the command frame of the instruction it decodes to. -/
def Obligations.EncodeInvertsDecode : Prop :=
  ∀ (cfg : Config) (f : List Byte) (i : Instr), decode cfg f = .ok i → encode cfg i = f

/-- 30_encoding R78: a frame is a READ command frame if and only if it has 140 bytes that agree with the table's row, whose
mask is `FF` at positions 0, 1 and 6 to 139 and `00` at 2 to 5, and whose match is the two constants (`81 52` at the defaults)
and `00` elsewhere. -/
def Obligations.DecoderAcceptsExactlyTableRow : Prop :=
  (∀ k < 140, tableMask k = if k = 2 ∨ k = 3 ∨ k = 4 ∨ k = 5 then 0x00 else 0xFF) ∧
    (∀ cfg : Config, tableMatch cfg 0 = cfg.accessCode ∧ tableMatch cfg 1 = cfg.cmdRead ∧
      ∀ k < 140, 2 ≤ k → tableMatch cfg k = 0x00) ∧
    (tableMatch Config.defaults 0 = 0x81 ∧ tableMatch Config.defaults 1 = 0x52) ∧
    ∀ (cfg : Config) (f : List Byte), (∃ i, decode cfg f = .ok i) ↔
      f.length = 140 ∧ ∀ (k : Nat) (h : k < f.length), f[k] &&& tableMask k = tableMatch cfg k

/-! ## The command frame assembler -/

/-- 40_frame_builder R90: `TX(i)` position by position. -/
def Obligations.TxByPosition : Prop :=
  ∀ s : State, tx s 0 = s.cfg.accessCode ∧ tx s 1 = s.cfg.cmdRead ∧ tx s 2 = s.cidR.id1 ∧ tx s 3 = s.cidR.id2 ∧
    tx s 4 = (s.addrR >>> 8).setWidth 8 ∧ tx s 5 = (s.addrR &&& 0xFF).setWidth 8 ∧
    ∀ i, 6 ≤ i → i ≤ 139 → tx s i = 0x00

/-- 40_frame_builder R91, R94: BUILD gives the frame of 140 bytes, address most significant byte first, for every legal
request, and raises `InvalidAddress` for every other. -/
def Obligations.BuildGivesFrameOrInvalidAddress : Prop :=
  ∀ (cfg : Config) (req : Request),
    (req.addrIn ≤ 65535 ∧ req.addrIn ≤ cfg.maxAddr.toNat → ∃ f : List Byte, build cfg req = .ok f ∧ f.length = 140 ∧
      f = [cfg.accessCode, cfg.cmdRead, (req.cidOvr.getD (slotCardId cfg req.slot)).id1,
          (req.cidOvr.getD (slotCardId cfg req.slot)).id2, BitVec.ofNat 8 (req.addrIn / 256),
          BitVec.ofNat 8 (req.addrIn % 256)] ++ List.replicate 134 0x00) ∧
    (¬ (req.addrIn ≤ 65535 ∧ req.addrIn ≤ cfg.maxAddr.toNat) → build cfg req = .error .invalidAddress)

/-- 40_frame_builder R92: after an accepted START the bytes `TX(0)` to `TX(139)` are BUILD of the request accepted, START
accepts exactly the requests BUILD accepts, and no step of the transfer changes what `TX` gives. -/
def Obligations.TxSequenceIsBuild : Prop :=
  (∀ (req : Request) (s : State), s.mode ≠ .xfer → ∃ t, exec (.read req) s = .next t ∧
      (t.mode = .xfer → build s.cfg req = .ok ((List.range 140).map (tx t))) ∧
      (t.mode ≠ .xfer → build s.cfg req = .error .invalidAddress)) ∧
    ∀ (s t : State), s.mode = .xfer → step s = .next t → ∀ i, tx t i = tx s i

/-! ## START -/

/-- 41_frame_sync R100 (with error entry, 60_exceptions R166): READ in `IDLE`, `DONE` or `FAULT` answers this next state, for
every request, legal or not; everything it does not write is as before. -/
def Obligations.ReadIssuesStart : Prop :=
  ∀ (req : Request) (s : State), s.mode ≠ .xfer →
    (req.addrIn ≤ 65535 ∧ req.addrIn ≤ s.cfg.maxAddr.toNat →
      exec (.read req) s = .next { s with
        mode := .xfer, addrR := BitVec.ofNat 16 req.addrIn, slotR := req.slot,
        cidR := req.cidOvr.getD (slotCardId s.cfg req.slot), idx := 0, acc := 0x00, err := .none,
        valid := false, chkerr := false, staterr := false }) ∧
    (¬ (req.addrIn ≤ 65535 ∧ req.addrIn ≤ s.cfg.maxAddr.toNat) →
      exec (.read req) s = .next { s with
        mode := .fault, err := .invalidAddress, valid := false, chkerr := false, staterr := false })

/-- 41_frame_sync R100, R101; 10_state R26, R30: what READ leaves unchanged. READ stores nothing: every position of `RXF`
reads as before, `CAUSE` is kept, and the registers it latches are kept where it latches nothing; in `XFER` no register of CORE
changes. -/
def Obligations.ReadLeavesUnchanged : Prop :=
  ∀ (req : Request) (s t : State), exec (.read req) s = .next t →
    (∀ pos, t.rxf.read pos = s.rxf.read pos) ∧ t.cause = s.cause ∧ t.cfg = s.cfg ∧ t.events = s.events ∧
    (s.mode ≠ .xfer → t.port = s.port) ∧
    (t.mode = .fault → t.addrR = s.addrR ∧ t.slotR = s.slotR ∧ t.cidR = s.cidR ∧ t.idx = s.idx ∧ t.acc = s.acc) ∧
    (s.mode = .xfer → t = { s with port := t.port })

/-- 41_frame_sync R101: START in `XFER` has no step of CORE: it is held on the host's side, it is still pending after every
step of the transfer unless the host shows another request, and it is accepted once CORE is in another mode. (That it is
accepted before the next event is the model's choice, log entry 10.) -/
def Obligations.StartWhileBusyIsHeld : Prop :=
  (∀ (req : Request) (s : State), s.mode = .xfer → exec (.read req) s = .next { s with port := some req }) ∧
    (∀ s t : State, s.mode = .xfer → step s = .next t →
      t.port = s.port ∨ ∃ req rest, s.events = .start req :: rest ∧ t.port = some req) ∧
    ∀ (req : Request) (s : State), s.mode ≠ .xfer → s.port = some req →
      step s = exec (.read req) { s with port := none }

/-- The step runs the instruction it fetches: a word that decodes runs as READ in the very next step of a CORE that is not in
a transfer, and so does the request of a START event. (That a word's request is placed on the port is the model's choice, log
entry 15.) -/
def Obligations.StepRunsDecodedRead : Prop :=
  (∀ (s : State) (nbits w : Nat) (i : Instr), s.mode ≠ .xfer → decodeWordFor s.cfg nbits w = some i →
      step (s.withFetchWord nbits w) = exec i { s with port := none }) ∧
    (∀ nbits w : Nat, decodeWordFor Config.defaults nbits w = decodeTableWord nbits w) ∧
    ∀ (s : State) (req : Request) (rest : List Event), s.mode = .xfer ∨ s.port = none → s.events = .start req :: rest →
      step s = exec (.read req) { s with events := rest }

/-! ## The transfer -/

/-- 41_frame_sync R103: XCHG stores the byte at `IDX`, accumulates it where the position is checksummed, counts, and changes
nothing else; the byte presented in the exchange is `TX(IDX)`. -/
def Obligations.ExchangeStoresAndAccumulates : Prop :=
  ∀ (s : State) (b : Byte) (rest : List Event), s.mode = .xfer → s.idx.toNat < 140 → s.events = .rx b :: rest →
    readPort .txByte s = .next (.byte (tx s s.idx.toNat)) ∧
    ∃ t, step s = .next t ∧
      (∀ pos : RxPos, t.rxf.read pos = if pos.val = s.idx.toNat then b else s.rxf.read pos) ∧
      ((∃ p ∈ s.cfg.chkHdrPos, p.val = s.idx.toNat) ∨ (10 ≤ s.idx.toNat ∧ s.idx.toNat < 138) → t.acc = s.acc ^^^ b) ∧
      (¬ ((∃ p ∈ s.cfg.chkHdrPos, p.val = s.idx.toNat) ∨ (10 ≤ s.idx.toNat ∧ s.idx.toNat < 138)) → t.acc = s.acc) ∧
      t.idx.toNat = s.idx.toNat + 1 ∧
      t = { s with rxf := t.rxf, acc := t.acc, idx := t.idx, events := rest }

/-- 41_frame_sync R104: EXTRA only sets the saturated count, and nothing is presented in exchange. -/
def Obligations.ExtraByteIsOnlyCounted : Prop :=
  ∀ (s : State) (b : Byte) (rest : List Event), s.mode = .xfer → 140 ≤ s.idx.toNat → s.events = .rx b :: rest →
    readPort .txActive s = .next (.bit false) ∧ step s = .next { s with idx := 141, events := rest }

/-- 41_frame_sync R105, 42_response_parser R125: END with a count other than 140 is `MalformedResponse`; with the count 140 it
writes the three flags from `ACC`, `RXF[138]` and `RXF[139]` and enters `DONE`, whatever the checksum and the status. -/
def Obligations.EndJudgesOrAborts : Prop :=
  ∀ (s : State) (rest : List Event), s.mode = .xfer → s.events = .finish :: rest →
    (s.idx.toNat ≠ 140 → step s = .next { s with
      mode := .fault, err := .malformedResponse, valid := false, chkerr := false, staterr := false, events := rest }) ∧
    (s.idx.toNat = 140 → step s = .next { s with
      mode := .done
      chkerr := decide (s.acc ≠ s.rxf.read 138)
      staterr := decide (s.rxf.read 139 ∉ s.cfg.statusOk)
      valid := decide (s.acc = s.rxf.read 138 ∧ s.rxf.read 139 ∈ s.cfg.statusOk)
      events := rest })

/-- 41_frame_sync R106: FAIL is `TransportError` with its cause unchanged, at every count, and writes nothing else. -/
def Obligations.FailRaisesTransportError : Prop :=
  ∀ (s : State) (c : Cause) (rest : List Event), s.mode = .xfer → s.events = .fail c :: rest →
    step s = .next { s with
      mode := .fault, err := .transportError, cause := c, valid := false, chkerr := false, staterr := false, events := rest }

/-- 60_exceptions R166: every step that reacts to an event and ends in `FAULT` is an error entry: `ERR` is the code of the
cause, `CAUSE` takes the transport's cause for `TransportError` and is unchanged otherwise, the three flags are cleared, and every
other register keeps its value. -/
def Obligations.ErrorEntryKeepsOtherRegisters : Prop :=
  ∀ s t : State, nextReaction s ≠ none → step s = .next t → t.mode = .fault →
    (((∃ req, nextReaction s = some (.start req)) ∧ errBits t.err = 1 ∧ t.cause = s.cause) ∨
      (∃ c, nextReaction s = some (.fail c) ∧ errBits t.err = 2 ∧ t.cause = c) ∨
      (nextReaction s = some .finish ∧ errBits t.err = 3 ∧ t.cause = s.cause)) ∧
    t.valid = false ∧ t.chkerr = false ∧ t.staterr = false ∧
    t.addrR = s.addrR ∧ t.slotR = s.slotR ∧ t.cidR = s.cidR ∧ t.idx = s.idx ∧ t.acc = s.acc ∧ t.rxf = s.rxf

/-- 41_frame_sync R107: outside `XFER` the events RX, END and FAIL have no step. That the model stops there with a fault of this
name is the model's choice (log entry 11): R107 says only that a model gives them no step. -/
def Obligations.UnsolicitedTransportEventStops : Prop :=
  ∀ (s : State) (e : Event) (rest : List Event), s.mode ≠ .xfer → s.port = none → s.events = e :: rest →
    (∃ b, e = .rx b) ∨ e = .finish ∨ (∃ c, e = .fail c) → step s = .fault .unsolicitedTransportEvent

/-- 20_memory R63: the request latched at START is what the transfer uses: no step taken in `XFER`, a START event among them,
changes `ADDR_R`, `SLOT_R` or `CID_R`. -/
def Obligations.LatchedRequestIsKept : Prop :=
  ∀ s t : State, s.mode = .xfer → step s = .next t → t.addrR = s.addrR ∧ t.slotR = s.slotR ∧ t.cidR = s.cidR

/-! ## Reset -/

/-- 70_reset R180, R181: RESET outside a transfer leaves these registers at these values, and is refused during one. It says
nothing of `ADDR_R`, `SLOT_R`, `CID_R`, `RXF` and `CAUSE`, which the spec leaves unspecified. (That RESET is refused during a
transfer although R180 says that it may occur in any mode is the model's reading of the two rules, log entry 12.) -/
def Obligations.ResetEventClears : Prop :=
  ∀ (s : State) (rest : List Event), s.events = .reset :: rest →
    (s.mode ≠ .xfer → s.port = none → ∃ t, step s = .next t ∧ t.mode = .idle ∧ t.err = .none ∧ t.valid = false ∧
      t.chkerr = false ∧ t.staterr = false ∧ t.idx = 0 ∧ t.acc = 0x00 ∧ t.cfg = s.cfg ∧ t.events = rest) ∧
    (s.mode = .xfer → step s = .refused .resetDuringTransfer)

/-- 10_state R40: the registers the spec gives a reset value, and the outputs after reset. -/
def Obligations.ResetStateAndOutputs : Prop :=
  State.reset.mode = .idle ∧ State.reset.err = .none ∧ State.reset.valid = false ∧ State.reset.chkerr = false ∧
    State.reset.staterr = false ∧ State.reset.idx = 0 ∧ State.reset.acc = 0x00 ∧
    readPort .busy State.reset = .next (.bit false) ∧ readPort .done State.reset = .next (.bit false) ∧
    readPort .fault State.reset = .next (.bit false) ∧ readPort .err State.reset = .next (.code 0) ∧
    readPort .txActive State.reset = .next (.bit false) ∧
    (∀ k, readPort (.resData k) State.reset = .refused .resultUndefined) ∧
    (∀ p ∈ [OutPort.resChk, OutPort.resStat, OutPort.resValid, OutPort.diagChk, OutPort.diagStat],
      readPort p State.reset = .refused .resultUndefined) ∧
    readPort .cause State.reset = .refused .causeUndefined

/-! ## Invariants -/

/-- 10_state R38, R40: the state after reset meets the invariants, whatever the registers hold that the spec leaves unspecified
there (so it rests on none of the values of log entries 6 and 7), whatever the parameters, and whatever the other agents will
do. (That `RXF` is kept in a canonical form is the model's own, log entry 7.) -/
def Obligations.ResetMeetsInvariants : Prop :=
  ∀ (addrR : SectorAddr) (slotR : Slot) (cidR : CardId) (rxf : Memory) (cause : Cause) (cfg : Config)
    (port : Option Request) (events : List Event), rxf.wf = true →
    Inv { State.reset with
      addrR := addrR, slotR := slotR, cidR := cidR, rxf := rxf, cause := cause, cfg := cfg, port := port, events := events }

/-- 10_state R38 (with R28 and the canonical form of `RXF`, which is the model's own, log entry 7): every step from every state
that meets the invariants gives a state that meets them. -/
def Obligations.StepKeepsInvariants : Prop :=
  ∀ s t : State, Inv s → step s = .next t → Inv t

/-- 10_state R41: "Parameters are not state": no step changes them. -/
def Obligations.ParametersNeverChange : Prop :=
  ∀ s t : State, step s = .next t → t.cfg = s.cfg

/-- 43_read_operation R142: a step that reacts to an event changes the mode as a row of `ModeChange` says, and every row that
applies is a step. `ModeChange` has the rows of the table, with RESET asked for outside `XFER` only (70_reset R181; the table's
row says any mode: log entry 12). That a step with nothing to react to changes nothing, the first clause, is the model's choice
(log entry 9). -/
def Obligations.ModeChangesAsTableLists : Prop :=
  (∀ s t : State, nextReaction s = none → step s = .next t → t = s) ∧
    (∀ (s t : State) (e : Event), nextReaction s = some e → step s = .next t → ModeChange s e t.mode) ∧
    ∀ (s : State) (e : Event) (m : Mode), nextReaction s = some e → ModeChange s e m →
      ∃ t, step s = .next t ∧ t.mode = m

/-- 43_read_operation R142, column "writes besides `MODE`", for the registers no row but START writes: a step that is neither
an accepted START nor RESET keeps `ADDR_R`, `SLOT_R` and `CID_R`; only XCHG and RESET write `RXF`; only FAIL and RESET write
`CAUSE`. -/
def Obligations.RegistersWrittenAsTableLists : Prop :=
  ∀ s t : State, step s = .next t → nextReaction s ≠ some .reset →
    ((t.addrR ≠ s.addrR ∨ t.slotR ≠ s.slotR ∨ t.cidR ≠ s.cidR) →
      ∃ req, nextReaction s = some (.start req) ∧ s.mode ≠ .xfer ∧ t.mode = .xfer) ∧
    (t.rxf ≠ s.rxf → ∃ b, nextReaction s = some (.rx b) ∧ s.mode = .xfer ∧ s.idx.toNat < 140) ∧
    (t.cause ≠ s.cause → ∃ c, nextReaction s = some (.fail c) ∧ t.cause = c ∧ t.err = .transportError)

/-- 60_exceptions R165, 00_scope R11: the machine stops only for a transport event outside a transfer (41_frame_sync R107) and
for RESET during one (70_reset R181). (That the first is a fault and the second a refusal, each by this name, is the model's
choice: log entries 11 and 12. That it goes on where there is no event is log entry 9.) -/
def Obligations.StopsOnlyForNamedReasons : Prop :=
  ∀ s : State,
    (∀ f, step s = .fault f → f = .unsolicitedTransportEvent ∧ s.mode ≠ .xfer ∧
      ∃ e rest, s.events = e :: rest ∧ ((∃ b, e = .rx b) ∨ e = .finish ∨ ∃ c, e = .fail c)) ∧
    ∀ r, step s = .refused r → r = .resetDuringTransfer ∧ s.mode = .xfer ∧ ∃ rest, s.events = .reset :: rest

/-- 00_scope R11: while the transport and the platform keep to 41_frame_sync R107 and 70_reset R181, every step answers a
next state, the rules go on being kept, and the invariants, where they held, go on holding: a run never stops. (That a run of
any number of steps goes on when no event is left, by waiting, is the model's choice, log entry 9; that the two rules are
broken by a stop of the model is log entries 11 and 12.) -/
def Obligations.RuleKeepingRunsNeverStop : Prop :=
  ∀ (k : Nat) (s : State), keepsRules s = true →
    ∃ t, runSteps k s = .next t ∧ keepsRules t = true ∧ (Inv s → Inv t)

/-! ## Waiting and ending -/

/-- 70_reset R187, 41_frame_sync R110: while the transport delivers neither END nor FAIL, CORE stays in `XFER`, whatever bytes
and requests arrive. (That ANY number of steps answers, those beyond the listed events as steps without effect, is the model's
choice, log entry 9.) -/
def Obligations.TransferEndsOnlyByTransport : Prop :=
  ∀ (k : Nat) (s : State), s.mode = .xfer → (∀ e ∈ s.events, endsTransfer e = false) →
    ∃ t, runSteps k s = .next t ∧ t.mode = .xfer ∧ readPort .busy t = .next (.bit true)

/-- 00_scope R9: "CORE never steps by itself": with no event and no request that could be accepted, any number of steps
leaves the state as it is. (That waiting is a step that changes nothing is the model's choice, log entry 9.) -/
def Obligations.NoEventNoChange : Prop :=
  ∀ (k : Nat) (s : State), s.events = [] → s.mode = .xfer ∨ s.port = none → runSteps k s = .next s

/-- The false variant of 95_test_vectors "Every READ from reset reaches `DONE` or `FAULT`" (70_reset R187): expected to fail. (That
the run of a transfer whose events are used up goes on, by waiting, is the model's choice, log entry 9.) -/
def Obligations.EveryTransferEnds : Prop :=
  ∀ s : State, Inv s → s.mode = .xfer → ∃ k t, runSteps k s = .next t ∧ t.mode ≠ .xfer

/-! ## Ports and the result -/

/-- 10_state R35: what the host's ports show, and that a read outside a port's condition is refused. -/
def Obligations.HostPortsAsDefined : Prop :=
  ∀ s : State,
    readPort .busy s = .next (.bit (decide (s.mode = .xfer))) ∧
    readPort .done s = .next (.bit (decide (s.mode = .done))) ∧
    readPort .fault s = .next (.bit (decide (s.mode = .fault))) ∧
    readPort .err s = .next (.code (errBits s.err)) ∧
    (errBits s.err = 2 → readPort .cause s = .next (.cause s.cause)) ∧
    (errBits s.err ≠ 2 → readPort .cause s = .refused .causeUndefined) ∧
    (s.mode = .done →
      (∀ (k : Fin 128) (h : 10 + k.val < 140), readPort (.resData k) s = .next (.byte (s.rxf.read ⟨10 + k.val, h⟩))) ∧
      readPort .resChk s = .next (.byte (s.rxf.read 138)) ∧
      readPort .resStat s = .next (.byte (s.rxf.read 139)) ∧
      readPort .resValid s = .next (.bit s.valid) ∧ readPort .diagChk s = .next (.bit s.chkerr) ∧
      readPort .diagStat s = .next (.bit s.staterr)) ∧
    (s.mode ≠ .done →
      (∀ k, readPort (.resData k) s = .refused .resultUndefined) ∧
      ∀ p ∈ [OutPort.resChk, OutPort.resStat, OutPort.resValid, OutPort.diagChk, OutPort.diagStat],
        readPort p s = .refused .resultUndefined)

/-- 10_state R36: the transport's ports. -/
def Obligations.TransportPortsAsDefined : Prop :=
  ∀ s : State,
    readPort .txActive s = .next (.bit (decide (s.mode = .xfer ∧ s.idx.toNat < 140))) ∧
    (s.mode = .xfer ∧ s.idx.toNat < 140 → readPort .txByte s = .next (.byte (tx s s.idx.toNat))) ∧
    (¬ (s.mode = .xfer ∧ s.idx.toNat < 140) → readPort .txByte s = .refused .txByteUndefined) ∧
    readPort .txLen s = .next (.length 140)

/-- 20_memory R57: the result appears all at once: before the step that enters `DONE` no result port is defined; that step is
END; after it every result port is. -/
def Obligations.ResultAppearsAtOnce : Prop :=
  ∀ s t : State, s.mode ≠ .done → step s = .next t → t.mode = .done →
    (∃ rest, s.events = .finish :: rest) ∧ s.idx.toNat = 140 ∧ t.rxf = s.rxf ∧
    (∀ (k : Fin 128) (h : 10 + k.val < 140), readPort (.resData k) s = .refused .resultUndefined ∧
      readPort (.resData k) t = .next (.byte (s.rxf.read ⟨10 + k.val, h⟩))) ∧
    (∀ p ∈ [OutPort.resChk, OutPort.resStat, OutPort.resValid, OutPort.diagChk, OutPort.diagStat],
      readPort p s = .refused .resultUndefined) ∧
    readPort .resChk t = .next (.byte (s.rxf.read 138)) ∧ readPort .resStat t = .next (.byte (s.rxf.read 139)) ∧
    readPort .resValid t = .next (.bit t.valid) ∧ readPort .diagChk t = .next (.bit t.chkerr) ∧
    readPort .diagStat t = .next (.bit t.staterr)

/-- 10_state R34, 42_response_parser R129: the result does not change while CORE stays in `DONE`, and CORE leaves `DONE` only
by a START or RESET. -/
def Obligations.ResultIsImmutable : Prop :=
  ∀ s t : State, s.mode = .done → step s = .next t →
    (t.mode = .done → t = s) ∧
    (t.mode ≠ .done → (∃ req, nextReaction s = some (.start req)) ∨ nextReaction s = some .reset)

/-- 10_state R23, R30: no rule reads `SLOT_R` or `CAUSE`: a step does the same to everything else whatever they hold. -/
def Obligations.SlotAndCauseAreNeverRead : Prop :=
  ∀ (s t : State) (slot : Slot) (cause : Cause), step s = .next t → ∃ slot' cause',
    step { s with slotR := slot, cause := cause } = .next { t with slotR := slot', cause := cause' }

/-! ## The parser -/

/-- 42_response_parser R122, 10_state R27: the running accumulator over the 140 bytes of a frame is the checksum of the
frame. -/
def Obligations.RunningAccumulatorIsChecksum : Prop :=
  ∀ (cfg : Config) (r : List Byte), r.length = 140 → accumulateAll cfg 0 0x00 r = chksum cfg r

/-- 42_response_parser R120, R121, R124, R125: the parser as a function of a frame: the length check first, then the extracted
fields, validity and the two independent diagnostics. -/
def Obligations.ParseOfFrame : Prop :=
  ∀ (cfg : Config) (r : List Byte),
    (r.length ≠ 140 → parseFrame cfg r = .error .malformedResponse) ∧
    ∀ h : r.length = 140, ∃ res, parseFrame cfg r = .ok res ∧
      res.data.length = 128 ∧ (∀ (k : Nat) (hk : k < res.data.length) (hk' : 10 + k < r.length), res.data[k] = r[10 + k]) ∧
      res.checksum = r[138] ∧ res.status = r[139] ∧
      (res.diagChk = true ↔ chksum cfg r ≠ r[138]) ∧ (res.diagStat = true ↔ r[139] ∉ cfg.statusOk) ∧
      (res.valid = true ↔ chksum cfg r = r[138] ∧ r[139] ∈ cfg.statusOk)

/-- 42_response_parser R127: two frames that agree at the positions of `CHK_HDR_POS` and from position 10 on have the same
result, whatever stands at the other header positions. -/
def Obligations.HeaderBytesOutsideEchoAreIgnored : Prop :=
  ∀ (cfg : Config) (r r' : List Byte), r.length = 140 → r'.length = 140 →
    (∀ k, (10 ≤ k ∨ ∃ p ∈ cfg.chkHdrPos, p.val = k) → r[k]? = r'[k]?) → parseFrame cfg r = parseFrame cfg r'

/-- 70_reset R189: the checksum misses a corruption that flips the same bits in two data bytes. -/
def Obligations.ChecksumMissesPairedFlips : Prop :=
  ∀ (cfg : Config) (r : List Byte) (j k : Nat) (d : Byte) (h : r.length = 140) (hj : 10 ≤ j) (hjk : j < k) (hk : k < 138),
    chksum cfg ((r.set j (r[j] ^^^ d)).set k (r[k] ^^^ d)) = chksum cfg r

/-- The reading 42_response_parser R128 forbids, that `valid` means the echoed address is the one asked for: expected to
fail. -/
def Obligations.ValidImpliesEchoedAddress : Prop :=
  ∀ (s t : State), Inv s → step s = .next t → t.mode = .done → t.valid = true →
    t.rxf.read 8 = addrMsb t.addrR ∧ t.rxf.read 9 = addrLsb t.addrR

/-! ## The whole READ -/

/-- 41_frame_sync R108, 43_read_operation R140: READ in any mode but `XFER`, then the events of any transport answer, ends
with exactly the outcome of the frame-level READ, shown on the ports; a response of 140 bytes is then what `RXF` holds. An
illegal request ends at once, and the answer is never asked for. -/
def Obligations.ReadRunsToFrameLevelOutcome : Prop :=
  ∀ (s : State) (req : Request) (a : Answer) (rest : List Event), s.mode ≠ .xfer → s.events = answerEvents a ++ rest →
    (req.addrIn ≤ 65535 ∧ req.addrIn ≤ s.cfg.maxAddr.toNat →
      ∃ t₁ t, exec (.read req) s = .next t₁ ∧ t₁.mode = .xfer ∧ runSteps (answerEvents a).length t₁ = .next t ∧
        shownOutcome t = some (readOutcome s.cfg req a) ∧ t.events = rest ∧ t.port = s.port ∧
        ∀ r, a = .ok r → r.length = 140 → t.mode = .done ∧ t.rxf.bytes 0 140 = r) ∧
    (¬ (req.addrIn ≤ 65535 ∧ req.addrIn ≤ s.cfg.maxAddr.toNat) →
      ∃ t, exec (.read req) s = .next t ∧ t.mode = .fault ∧ t.events = s.events ∧
        shownOutcome t = some (readOutcome s.cfg req a) ∧ readOutcome s.cfg req a = .error .invalidAddress)

/-- 41_frame_sync R102, R111: at the `k`-th exchange the byte presented is byte `k` of BUILD, whatever bytes were received
before, exactly 140 bytes are presented, and the bytes received stand in `RXF` at their positions. -/
def Obligations.FrameIsSentInLockstep : Prop :=
  ∀ (s : State) (req : Request) (f r : List Byte) (rest : List Event), s.mode ≠ .xfer → build s.cfg req = .ok f →
    s.events = r.map Event.rx ++ rest → ∃ t₁, exec (.read req) s = .next t₁ ∧
      ∀ k ≤ r.length, ∃ t, runSteps k t₁ = .next t ∧ t.mode = .xfer ∧
        (∀ h : k < f.length, readPort .txByte t = .next (.byte f[k])) ∧
        (f.length ≤ k → readPort .txActive t = .next (.bit false)) ∧
        t.rxf.bytes 0 (min k 140) = r.take (min k 140)

/-- 43_read_operation R144, 42_response_parser R126: the outcome of a READ is a function of the transport's answer and the
parameters only: two READs of legal addresses with the same answer show the same outcome, whatever the two addresses, slots and
overrides are and whatever every register held before. -/
def Obligations.OutcomeDependsOnAnswerOnly : Prop :=
  ∀ (s s' : State) (req req' : Request) (a : Answer) (rest rest' : List Event), s.cfg = s'.cfg →
    s.mode ≠ .xfer → s'.mode ≠ .xfer → s.events = answerEvents a ++ rest → s'.events = answerEvents a ++ rest' →
    addrLegal s.cfg req.addrIn = true → addrLegal s.cfg req'.addrIn = true →
    ∃ t₁ t t₁' t', exec (.read req) s = .next t₁ ∧ runSteps (answerEvents a).length t₁ = .next t ∧
      exec (.read req') s' = .next t₁' ∧ runSteps (answerEvents a).length t₁' = .next t' ∧
      shownOutcome t = shownOutcome t' ∧ shownOutcome t ≠ none
end

