-- ==== Sys2Proof/Laws/Frames.lean ====
section
/-! SUPPORT. The laws of the frames: what a command frame decodes to, and the checksum of a sequence of bytes. -/

namespace Sys2Proof

/-- Decoding a command frame reads back the address and the card-id pair it was made of. -/
theorem decode_commandFrame (cfg : Config) (a : SectorAddr) (c : CardId) :
    decode cfg (commandFrame cfg a c) = .ok (.read ⟨a.toNat, .slot1, some c⟩) := by
  simp [decode, commandFrame, Machine.addrOfBytes_msb_lsb]

/-- The shape of a byte sequence that decodes. -/
theorem decode_eq_ok {cfg : Config} {f : List Byte} {i : Instr} (h : decode cfg f = .ok i) :
    ∃ id1 id2 msb lsb, f = [cfg.accessCode, cfg.cmdRead, id1, id2, msb, lsb] ++ List.replicate padLen 0x00 ∧
      i = .read ⟨(Machine.addrOfBytes msb lsb).toNat, .slot1, some ⟨id1, id2⟩⟩ := by
  unfold decode at h
  split at h
  · next access cmd id1 id2 msb lsb pad =>
    split at h
    · cases h
    next hlen =>
    split at h
    · cases h
    next hacc =>
    split at h
    · cases h
    next hcmd =>
    split at h
    · next hpad =>
      cases h
      simp only [ne_eq, Decidable.not_not] at hlen hacc hcmd
      subst hacc hcmd
      refine ⟨id1, id2, msb, lsb, ?_, rfl⟩
      rw [← hlen, ← List.eq_replicate_of_mem (a := 0x00) (by simpa using hpad)]
      rfl
    · cases h
  · cases h

namespace Machine

theorem xorAll_append (a b : List Byte) : xorAll (a ++ b) = xorAll a ^^^ xorAll b := by
  induction a with
  | nil => simp [xorAll]
  | cons x a ih => simp [xorAll, ih, BitVec.xor_assoc]

/-- The checksummed positions, as 10_state R27 names them. -/
theorem inChecksum_iff (cfg : Config) (i : Nat) :
    inChecksum cfg i = true ↔ (∃ p ∈ cfg.chkHdrPos, p.val = i) ∨ (10 ≤ i ∧ i < 138) := by
  simp [inChecksum, headerChecked]

end Machine

end Sys2Proof
end

