-- ==== Sys2Proof/Laws/PerInstr.lean ====
section
/-! SUPPORT. Statements about every instruction, one lemma per constructor of Instr. -/

namespace Sys2Proof.Laws.FrameLength

/-- The command frame has 140 bytes whatever the request and the parameters are (40_frame_builder R94). -/
def Statement (i : Instr) : Prop :=
  ∀ cfg : Config, (encode cfg i).length = frameLen

theorem read (req : Request) : Statement (.read req) := by
  intro cfg
  simp [encode, commandFrame]

end Sys2Proof.Laws.FrameLength
end

