-- ==== Sys2Proof/Laws/Transfer.lean ====
section
/-! SUPPORT. The induction over a transfer's received bytes, packaged once. -/

namespace Sys2Proof.Machine

/-- A run followed by a run. -/
theorem runSteps_add {s t : State} (k n : Nat) (h : runSteps k s = .next t) : runSteps (k + n) s = runSteps n t := by
  induction k generalizing s with
  | zero => cases h; rw [Nat.zero_add]
  | succ k ih =>
    rw [show k + 1 + n = (k + n) + 1 by omega]
    cases hs : step s with
    | next s' => rw [runSteps_succ _ hs] at h; rw [runSteps_succ _ hs]; exact ih h
    | fault f =>
      simp only [runSteps, Host.Core.run] at h
      rw [show Host.Core.step Sys2Proof.core s = .fault f from hs] at h
      cases h
    | refused f =>
      simp only [runSteps, Host.Core.run] at h
      rw [show Host.Core.step Sys2Proof.core s = .refused f from hs] at h
      cases h

/-- In a transfer in which the bytes `got` were received: the count, the buffer and the accumulator are those of `got`. -/
structure Got (got : List Byte) (s : State) : Prop where
  mode : s.mode = .xfer
  idx : s.idx.toNat = min got.length 141
  rxf : s.rxf.bytes 0 (min got.length frameLen) = got.take frameLen
  acc : s.acc = accumulateAll s.cfg 0 0x00 (got.take frameLen)

/-- What the steps of a transfer leave as it is. -/
structure SameRequest (s t : State) : Prop where
  cfg : t.cfg = s.cfg
  port : t.port = s.port
  tx : ∀ i, tx t i = tx s i

/-- One RX step. -/
theorem got_step {got : List Byte} {b : Byte} {s : State} {rest : List Event} (h : Got got s)
    (he : s.events = .rx b :: rest) :
    ∃ t, step s = .next t ∧ Got (got ++ [b]) t ∧ SameRequest s t ∧ t.events = rest := by
  have hs := step_event (readyRequest_busy h.mode) he
  rw [onEvent, duringTransfer, if_pos (by exact h.mode)] at hs
  obtain ⟨hm, hi, hb, ha⟩ := h
  simp only [frameLen_eq] at hb ha
  by_cases hx : s.idx.toNat < frameLen
  · have hx' : s.idx.toNat < 140 := hx
    have hlen : s.idx.toNat = got.length := by omega
    rw [show min got.length 140 = s.idx.toNat by omega, List.take_of_length_le (by omega)] at hb
    rw [List.take_of_length_le (by omega)] at ha
    refine ⟨_, hs.trans (congrArg _ (receive_inside (s := withEvents rest s) b hx)), ⟨hm, ?_, ?_, ?_⟩, ⟨rfl, rfl, fun _ => rfl⟩, rfl⟩
    · simp; omega
    · show (s.rxf.write ⟨s.idx.toNat, hx⟩ b).bytes 0 (min (got ++ [b]).length 140) = (got ++ [b]).take 140
      rw [show min (got ++ [b]).length 140 = s.idx.toNat + 1 by simp; omega, List.take_of_length_le (by simp; omega), ← hb]
      exact Memory.bytes_write s.rxf ⟨s.idx.toNat, hx⟩ b
    · show accumulate s.cfg s.idx.toNat s.acc b = accumulateAll s.cfg 0 0x00 ((got ++ [b]).take 140)
      rw [List.take_of_length_le (by simp; omega), accumulateAll_append, ← ha, hlen, Nat.zero_add]
  · have hx' : ¬ s.idx.toNat < 140 := hx
    refine ⟨_, hs.trans (congrArg _ (receive_beyond (s := withEvents rest s) b hx)), ⟨hm, ?_, ?_, ?_⟩, ⟨rfl, rfl, fun _ => rfl⟩, rfl⟩
    · simp; omega
    · rw [frameLen_eq, show min (got ++ [b]).length 140 = 140 by simp; omega, List.take_append_of_le_length (by omega)]
      rw [show min got.length 140 = 140 by omega] at hb
      exact hb
    · rw [frameLen_eq, List.take_append_of_le_length (by omega)]
      exact ha

/-- The steps of any number of RX events. -/
theorem got_run (r : List Byte) : ∀ {got : List Byte} {s : State} {rest : List Event}, Got got s →
    s.events = r.map Event.rx ++ rest →
    ∃ t, runSteps r.length s = .next t ∧ Got (got ++ r) t ∧ SameRequest s t ∧ t.events = rest := by
  induction r with
  | nil =>
    intro got s rest h he
    exact ⟨s, rfl, by simpa using h, ⟨rfl, rfl, fun _ => rfl⟩, by simpa using he⟩
  | cons b r ih =>
    intro got s rest h he
    obtain ⟨s', hs, hg, hq, he'⟩ := got_step h (by simpa using he)
    obtain ⟨t, ht, hg', hq', het⟩ := ih hg he'
    refine ⟨t, by rw [List.length_cons, runSteps_succ _ hs]; exact ht, by simpa using hg', ?_, het⟩
    exact ⟨hq'.cfg.trans hq.cfg, hq'.port.trans hq.port, fun i => (hq'.tx i).trans (hq.tx i)⟩

/-- Right after an accepted START nothing was received. -/
theorem got_accepted (req : Request) (s : State) : Got [] (acceptRequest req s) :=
  ⟨rfl, rfl, rfl, rfl⟩

end Sys2Proof.Machine
end

