-- ==== Sys2Proof/Tests/Slice0.lean ====
section
/-! SUPPORT. The model's own tests: well-formedness, words written out from 30_encoding R70, the vectors of 95_test_vectors,
and a witness for the hypotheses of every statement that has some. Expected values are the spec's, by its vectors' names. -/

-- One theorem after another: checked all at once, their threads' stacks alone pass the check's memory bound.
set_option Elab.async false

namespace Sys2Proof.Machine.Tests

/-! ## Helpers -/

/-- The next state, if there is one. -/
def nextOf : Host.Outcome State Fault Refusal → Option State
  | .next s => some s
  | .fault _ => none
  | .refused _ => none

/-- The bytes of a list at positions 0, 1, 2, ..., in the canonical form. -/
def bufferOf (bs : List Byte) : Memory :=
  ⟨((List.range bs.length).zip bs).filter fun c => decide (c.2 ≠ unlistedByte)⟩

/-- A transfer at a position, with these bytes received and these events to come. -/
def xferAt (idx : BitVec 8) (acc : Byte) (got : List Byte) (events : List Event) : State :=
  { State.reset with
    mode := .xfer
    idx := idx
    acc := acc
    rxf := bufferOf got
    events := events }

/-- A state outside a transfer with these events to come. -/
def restAt (mode : Mode) (err : ErrCode) (events : List Event) : State :=
  { State.reset with
    mode := mode
    err := err
    events := events }

/-- A request by its three parts. -/
def req (a : Nat) (slot : Slot) (c : Option CardId) : Request := ⟨a, slot, c⟩

/-- `INC` of 95_test_vectors. -/
def inc : List Byte := (List.range 128).map (BitVec.ofNat 8)

/-- `HDR8` of 95_test_vectors. -/
def hdr8 : List Byte := [0x11, 0x22, 0x33, 0x44, 0x55, 0x66, 0x77, 0x88]

/-- The frame of P3. -/
def p3 : List Byte := hdr8 ++ [0x00, 0x3F] ++ inc ++ [0x3F, 0x47]

/-- The frame of P7: checksum and status both bad. -/
def p7 : List Byte := hdr8 ++ [0x00, 0x3F] ++ inc ++ [0xBF, 0x4E]

/-! ## Well-formedness: an ill-formed term for each check -/

theorem test_config_width_refused : Config.wellFormed { Config.defaults with addrInW := 16 } = false := by decide
theorem test_config_defaults_accepted : Config.defaults.wellFormed = true := by decide
theorem test_address_wider_than_port_refused :
    Instr.wellFormed Config.defaults (.read (req 0x100000000 .slot1 none)) = false := by decide
theorem test_widest_address_accepted : Instr.wellFormed Config.defaults (.read (req 0xFFFFFFFF .slot2 none)) = true := by decide
theorem test_frame_form_refuses_wide_address : Instr.frameForm (.read (req 65536 .slot1 (some ⟨0, 0⟩))) = false := by decide
theorem test_frame_form_refuses_absent_pair : Instr.frameForm (.read (req 1 .slot1 none)) = false := by decide
theorem test_frame_form_refuses_slot2 : Instr.frameForm (.read (req 1 .slot2 (some ⟨0, 0⟩))) = false := by decide

/-! ## Decoding: words written out from 30_encoding R70 -/

/-- B5: position 4 is the most significant byte. -/
theorem test_decode_b5 : decode Config.defaults ([0x81, 0x52, 0x00, 0x00, 0x12, 0x34] ++ List.replicate 134 0x00) =
    .ok (.read (req 0x1234 .slot1 (some ⟨0x00, 0x00⟩))) := by decide +kernel

/-- B8: positions 2 and 3 are the card-id pair, in this order. -/
theorem test_decode_b8_word : decodeTableWord 1120 0xFF0322115281 = some (.read (req 0x03FF .slot1 (some ⟨0x11, 0x22⟩))) := by
  decide +kernel

theorem test_decode_refuses_other_command :
    decode Config.defaults ([0x81, 0x57, 0x00, 0x00, 0x12, 0x34] ++ List.replicate 134 0x00) = .error (.notReadCommand 0x57) := by
  decide +kernel
theorem test_decode_refuses_other_access :
    decode Config.defaults ([0x01, 0x52, 0x00, 0x00, 0x12, 0x34] ++ List.replicate 134 0x00) = .error (.notAccessCode 0x01) := by
  decide +kernel
theorem test_decode_refuses_nonzero_status_place :
    decode Config.defaults ([0x81, 0x52, 0x00, 0x00, 0x12, 0x34] ++ List.replicate 133 0x00 ++ [0x01]) =
      .error .placeholderNotZero := by decide +kernel
theorem test_decode_refuses_long_frame :
    decode Config.defaults ([0x81, 0x52, 0x00, 0x00, 0x12, 0x34] ++ List.replicate 135 0x00) = .error (.wrongLength 141) := by
  decide +kernel

/-- 95_test_vectors 2.1, "With other parameters": the constants are substituted and nothing else moves. -/
theorem test_encode_other_constants :
    encode { Config.defaults with accessCode := 0xA5, cmdRead := 0x3C } (.read (req 0x1234 .slot1 none)) =
      [0xA5, 0x3C, 0x00, 0x00, 0x12, 0x34] ++ List.replicate 134 0x00 := by decide +kernel

/-! ## READ -/

/-- T1. -/
theorem test_read_from_reset : nextOf (exec (.read (req 0x003F .slot1 none)) State.reset) = some { State.reset with
    mode := .xfer, addrR := 0x003F } := by decide +kernel

/-- B12: an address that fits 16 bits and exceeds the caller's bound. -/
theorem test_read_above_bound :
    nextOf (exec (.read (req 0x0400 .slot1 none)) { State.reset with cfg := { Config.defaults with maxAddr := 0x03FF } }) =
      some { State.reset with
        mode := .fault, err := .invalidAddress, cfg := { Config.defaults with maxAddr := 0x03FF } } := by decide +kernel

/-- A word of the opcode table runs as the first instruction after reset. -/
theorem test_step_runs_table_word :
    nextOf (step (State.reset.withFetchWord 1120 0x3F0000005281)) = some { State.reset with
      mode := .xfer, addrR := 0x003F } := by decide +kernel

/-- 93_implementation_defined U11: after reset a position of `RXF` holds a value; here the model's (log entry 7). -/
theorem test_reset_buffer_holds_a_value : State.reset.rxf.read 0 = unlistedByte ∧ State.reset.rxf.read 139 = unlistedByte := by
  decide

/-! ## The transfer's events, one step each -/

/-- The byte `0x00` overwrites what an earlier transfer left (R103), and leaves no cell of its own. -/
theorem test_exchange_zero_over_old : (nextOf (step (xferAt 8 0x00 (hdr8 ++ [0x55, 0x66]) [.rx 0x00]))).map (fun t => (t.rxf.read 8, t.rxf.read 9, t.rxf.wf)) =
    some (0x00, 0x66, true) := by decide +kernel

/-- X2. -/
theorem test_exchange_position_8 : (nextOf (step (xferAt 8 0x00 (hdr8) [.rx 0x12]))).map (fun t => (t.idx, t.acc, t.rxf.read 8)) =
    some (9, 0x12, 0x12) := by decide +kernel

/-- X5 and X6: the last data byte enters the checksum, the checksum byte does not. -/
theorem test_exchange_last_data_and_checksum :
    (nextOf (step (xferAt 137 0x40 [] [.rx 0x7F]))).map (·.acc) = some 0x3F ∧
      (nextOf (step (xferAt 138 0x3F [] [.rx 0x3F]))).map (·.acc) = some 0x3F := by decide +kernel

/-- X8 and X9. -/
theorem test_extra_saturates : (nextOf (step (xferAt 140 0x3F [] [.rx 0xAA]))).map (·.idx) = some 141 ∧
    (nextOf (step (xferAt 141 0x3F [] [.rx 0xBB]))).map (·.idx) = some 141 := by decide +kernel

/-- T4 and T5. -/
theorem test_end_with_wrong_count : (nextOf (step (xferAt 139 0 [] [.finish]))).map (·.err) = some .malformedResponse ∧
    (nextOf (step (xferAt 141 0 [] [.finish]))).map (·.err) = some .malformedResponse := by decide +kernel

/-- T10, P5 and P6. -/
theorem test_end_judges :
    (nextOf (step (xferAt 140 0x3F p3 [.finish]))).map (fun t => (t.mode, t.valid, t.chkerr, t.staterr)) =
        some (.done, true, false, false) ∧
      (nextOf (step (xferAt 140 0x3F p7 [.finish]))).map (fun t => (t.mode, t.valid, t.chkerr, t.staterr)) =
        some (.done, false, true, true) := by decide +kernel

/-- T9: failure wins over excess length. -/
theorem test_fail_after_excess : (nextOf (step (xferAt 141 0 [] [.fail ⟨3⟩]))).map (fun t => (t.mode, t.err, t.cause)) =
    some (.fault, .transportError, ⟨3⟩) := by decide +kernel

/-! ## The parser -/

/-- P3, and the table of `CHK_HDR_POS` on its frame. -/
theorem test_checksum_p3 : chksum Config.defaults p3 = 0x3F ∧
    chksum { Config.defaults with chkHdrPos := [] } p3 = 0x00 ∧
    chksum { Config.defaults with chkHdrPos := [4, 5] } p3 = 0x33 ∧
    chksum { Config.defaults with chkHdrPos := [0, 1, 2, 3, 4, 5, 6, 7, 8, 9] } p3 = 0xB7 := by decide +kernel

/-- R-1: the result of P3's frame. -/
theorem test_read_outcome_p3 : readOutcome Config.defaults (req 0x003F .slot1 none) (.ok p3) =
    .result ⟨inc, 0x3F, 0x47, true, false, false⟩ := by decide +kernel

/-- R-3: 139 bytes. -/
theorem test_read_outcome_short : readOutcome Config.defaults (req 0x003F .slot1 none) (.ok (p3.take 139)) =
    .error .malformedResponse := by decide +kernel

/-! ## Witnesses: a state and operands that meet the hypotheses of each statement -/

theorem witness_DecodeInvertsEncode : (req 65535 .slot2 none).addrIn ≤ 65535 ∧
    Instr.frameForm (.read (req 65535 .slot1 (some ⟨0xFF, 0xFF⟩))) = true := by decide

theorem witness_EncodeInvertsDecode :
    decode Config.defaults ([0x81, 0x52, 0x00, 0x00, 0xFF, 0xFF] ++ List.replicate 134 0x00) =
      .ok (.read (req 65535 .slot1 (some ⟨0x00, 0x00⟩))) := by decide +kernel

/-- The ranges of `TxByPosition` and of the table's row at their ends. -/
theorem witness_TxByPosition : 6 ≤ 6 ∧ 6 ≤ 139 ∧ 139 ≤ 139 ∧ 139 < 140 := by decide

theorem witness_BuildGivesFrameOrInvalidAddress :
    ((req 65535 .slot1 none).addrIn ≤ 65535 ∧ (req 65535 .slot1 none).addrIn ≤ Config.defaults.maxAddr.toNat) ∧
      ¬ ((req 65536 .slot1 none).addrIn ≤ 65535 ∧ (req 65536 .slot1 none).addrIn ≤ Config.defaults.maxAddr.toNat) := by decide +kernel

theorem witness_TxSequenceIsBuild : State.reset.mode ≠ .xfer ∧ (xferAt 0 0 [] [.rx 0x11]).mode = .xfer ∧
    (nextOf (step (xferAt 0 0 [] [.rx 0x11]))).isSome = true ∧
    (nextOf (exec (.read (req 65535 .slot1 none)) State.reset)).map (·.mode) = some .xfer ∧
    (nextOf (exec (.read (req 65536 .slot1 none)) State.reset)).map (·.mode) = some .fault := by decide +kernel

/-- The three modes START is accepted in, and both of its clauses at the bound. -/
theorem witness_ReadIssuesStart : (restAt .idle .none []).mode ≠ .xfer ∧ (restAt .done .none []).mode ≠ .xfer ∧
    (restAt .fault .transportError []).mode ≠ .xfer ∧
    (65535 ≤ 65535 ∧ 65535 ≤ State.reset.cfg.maxAddr.toNat) ∧ ¬ (65536 ≤ 65535 ∧ 65536 ≤ State.reset.cfg.maxAddr.toNat) := by
  decide +kernel

theorem witness_ReadLeavesUnchanged :
    (nextOf (exec (.read (req 1 .slot1 none)) State.reset)).isSome = true ∧
      (nextOf (exec (.read (req 65536 .slot1 none)) State.reset)).map (·.mode) = some .fault ∧
      (nextOf (exec (.read (req 1 .slot1 none)) (xferAt 57 0 [] []))).isSome = true := by decide +kernel

theorem witness_StartWhileBusyIsHeld : (xferAt 57 0 [] [.start (req 1 .slot1 none)]).mode = .xfer ∧
    (nextOf (step (xferAt 57 0 [] [.start (req 1 .slot1 none)]))).isSome = true ∧
    (nextOf (step (xferAt 57 0 [] [.fail ⟨1⟩]))).isSome = true ∧
    ({ restAt .fault .transportError [] with port := some (req 1 .slot1 none) } : State).mode ≠ .xfer := by decide +kernel

theorem witness_StepRunsDecodedRead : State.reset.mode ≠ .xfer ∧
    decodeWordFor State.reset.cfg 1120 0xFFFF00005281 = some (.read (req 65535 .slot1 (some ⟨0, 0⟩))) ∧
    (restAt .done .none [.start (req 1 .slot2 none)]).port = none := by decide +kernel

/-- Each clause of the accumulator at its ends: positions 0 and 138 are not checksummed, 8, 10 and 137 are. -/
theorem witness_ExchangeStoresAndAccumulates :
    (xferAt 139 0 [] [.rx 0x47]).mode = .xfer ∧ (xferAt 139 0 [] [.rx 0x47]).idx.toNat < 140 ∧
      inChecksum State.reset.cfg 0 = false ∧ inChecksum State.reset.cfg 8 = true ∧ inChecksum State.reset.cfg 10 = true ∧
      inChecksum State.reset.cfg 137 = true ∧ inChecksum State.reset.cfg 138 = false := by decide

theorem witness_ExtraByteIsOnlyCounted : (xferAt 140 0 [] [.rx 0xAA]).mode = .xfer ∧
    140 ≤ (xferAt 140 0 [] [.rx 0xAA]).idx.toNat ∧ (xferAt 140 0 [] [.rx 0xAA]).events = .rx 0xAA :: [] := by decide

theorem witness_EndJudgesOrAborts : (xferAt 140 0x3F p3 [.finish]).mode = .xfer ∧
    (xferAt 140 0x3F p3 [.finish]).idx.toNat = 140 ∧ (xferAt 139 0 [] [.finish]).idx.toNat ≠ 140 ∧
    (xferAt 140 0x3F p3 [.finish]).rxf.read 138 = 0x3F ∧ (xferAt 140 0x3F p3 [.finish]).rxf.read 139 = 0x47 := by
  decide +kernel

theorem witness_FailRaisesTransportError : (xferAt 0 0 [] [.fail ⟨1⟩]).mode = .xfer ∧ (xferAt 141 0 [] [.fail ⟨1⟩]).mode = .xfer := by
  decide

theorem witness_ErrorEntryKeepsOtherRegisters : nextReaction (xferAt 17 0 [] [.fail ⟨1⟩]) ≠ none ∧
    (nextOf (step (xferAt 17 0 [] [.fail ⟨1⟩]))).map (·.mode) = some .fault := by decide +kernel

theorem witness_UnsolicitedTransportEventStops : (restAt .idle .none [.rx 0]).mode ≠ .xfer ∧
    (restAt .done .none [.finish]).mode ≠ .xfer ∧ (restAt .fault .malformedResponse [.fail ⟨1⟩]).mode ≠ .xfer ∧
    State.reset.port = none := by decide

theorem witness_LatchedRequestIsKept : (xferAt 57 0 [] [.start (req 1 .slot1 none)]).mode = .xfer ∧
    (nextOf (step (xferAt 57 0 [] [.start (req 1 .slot1 none)]))).isSome = true := by decide +kernel

theorem witness_ResetEventClears : (restAt .done .none [.reset]).events = .reset :: [] ∧ (restAt .done .none [.reset]).mode ≠ .xfer ∧
    (restAt .done .none [.reset]).port = none ∧ (xferAt 57 0 [] [.reset]).mode = .xfer := by decide

/-- The invariants hold in the reset state, and of a transfer in which nothing was received yet. -/
theorem witness_inv_reset : Inv State.reset := by
  constructor <;> simp [State.reset, Memory.wf, cellsFrom, flagsClear]

theorem witness_inv_started (events : List Event) : Inv (xferAt 0 0 [] events) := by
  constructor <;> simp [xferAt, State.reset, bufferOf, Memory.wf, cellsFrom, flagsClear, received, Memory.bytes, accumulateAll]

/-- The invariants hold of a transfer in which all 140 bytes of P3 were received. -/
theorem witness_inv_received (events : List Event) : Inv (xferAt 140 0x3F p3 events) := by
  have hwf : (bufferOf p3).wf = true := by decide +kernel
  have hbytes : (bufferOf p3).bytes 0 140 = p3 := by decide +kernel
  have hacc : (0x3F : Byte) = accumulateAll Config.defaults 0 0x00 p3 := by decide +kernel
  exact ⟨hwf, by simp [xferAt], by simp [xferAt], fun _ => ⟨rfl, ⟨rfl, rfl, rfl⟩, by simp [xferAt, State.reset]⟩,
    fun _ => hacc.trans (congrArg _ hbytes.symm), by simp [xferAt], by simp [xferAt, State.reset], by simp [xferAt]⟩

/-- `ResetMeetsInvariants` at a buffer that holds what an earlier transfer left. -/
theorem witness_ResetMeetsInvariants : (bufferOf p3).wf = true := by decide +kernel

/-- A state with the invariants whose step enters `DONE`. -/
theorem witness_StepKeepsInvariants : Inv (xferAt 140 0x3F p3 [.finish]) ∧
    (nextOf (step (xferAt 140 0x3F p3 [.finish]))).map (·.mode) = some .done :=
  ⟨witness_inv_received _, by decide +kernel⟩

/-- The data ports at both ends of their range. -/
theorem witness_ResultAppearsAtOnce : (xferAt 140 0x3F p3 [.finish]).mode ≠ .done ∧
    (nextOf (step (xferAt 140 0x3F p3 [.finish]))).map (·.mode) = some .done ∧
    10 + (0 : Fin 128).val < 140 ∧ 10 + (127 : Fin 128).val < 140 := by decide +kernel

theorem witness_ParametersNeverChange : (nextOf (step (xferAt 0 0 [] [.rx 0x11]))).isSome = true := by decide +kernel

/-- The clauses of `ModeChangesAsTableLists`: nothing to react to; an event; and a row of the table. -/
theorem witness_ModeChangesAsTableLists : nextReaction State.reset = none ∧ (nextOf (step State.reset)).isSome = true ∧
    nextReaction (xferAt 140 0x3F p3 [.finish]) = some .finish ∧
    (nextOf (step (xferAt 140 0x3F p3 [.finish]))).isSome = true ∧
    ModeChange (xferAt 140 0x3F p3 [.finish]) .finish .done :=
  ⟨by decide, by decide +kernel, by decide +kernel, by decide +kernel, .wellFormed rfl (by decide)⟩

theorem witness_RegistersWrittenAsTableLists :
    nextReaction (xferAt 0 0 [] [.rx 0x11]) ≠ some .reset ∧
      (nextOf (step (xferAt 0 0 [] [.rx 0x11]))).map (·.rxf) = some (bufferOf [0x11]) ∧
      (nextOf (step (xferAt 0 0 [] [.fail ⟨1⟩]))).map (·.cause) = some ⟨1⟩ ∧
      (nextOf (step (restAt .idle .none [.start (req 1 .slot1 none)]))).map (·.addrR) = some 1 := by decide +kernel

theorem witness_StopsOnlyForNamedReasons : step (xferAt 0 0 [] [.reset]) = .refused .resetDuringTransfer ∧
    step (restAt .idle .none [.rx 0]) = .fault .unsolicitedTransportEvent :=
  ⟨rfl, rfl⟩

/-- A script that keeps the rules: a request, a second one held during the transfer, its end, and the second transfer's. -/
theorem witness_RuleKeepingRunsNeverStop :
    Inv (xferAt 0 0 [] [.rx 1, .start (req 5 .slot2 none), .fail ⟨1⟩, .rx 2, .finish, .reset]) ∧
      keepsRules (xferAt 0 0 [] [.rx 1, .start (req 5 .slot2 none), .fail ⟨1⟩, .rx 2, .finish, .reset]) = true :=
  ⟨witness_inv_started _, by decide⟩

theorem witness_TransferEndsOnlyByTransport : (xferAt 0 0 [] [.rx 1, .start (req 5 .slot2 none)]).mode = .xfer ∧
    ∀ e ∈ (xferAt 0 0 [] [.rx 1, .start (req 5 .slot2 none)]).events, endsTransfer e = false := by decide

theorem witness_NoEventNoChange : State.reset.events = [] ∧ State.reset.port = none ∧ (xferAt 3 0 [] []).mode = .xfer := by decide

theorem witness_EveryTransferEnds : Inv (xferAt 0 0 [] []) ∧ (xferAt 0 0 [] []).mode = .xfer :=
  ⟨witness_inv_started _, rfl⟩

/-- The clauses of the ports: `DONE` with the result's bytes, another mode, and `cause` defined and not. -/
theorem witness_HostPortsAsDefined : (deliver 0x3F 0x47 (xferAt 140 0x3F p3 [])).mode = .done ∧
    (deliver 0x3F 0x47 (xferAt 140 0x3F p3 [])).rxf.read 10 = 0x00 ∧
    (deliver 0x3F 0x47 (xferAt 140 0x3F p3 [])).rxf.read 137 = 0x7F ∧ State.reset.mode ≠ .done ∧
    errBits (restAt .fault .transportError []).err = 2 ∧ errBits State.reset.err ≠ 2 := by decide +kernel

theorem witness_TransportPortsAsDefined : ((xferAt 139 0 [] []).mode = .xfer ∧ (xferAt 139 0 [] []).idx.toNat < 140) ∧
    ¬ ((xferAt 140 0 [] []).mode = .xfer ∧ (xferAt 140 0 [] []).idx.toNat < 140) := by decide

theorem witness_ResultIsImmutable : (restAt .done .none []).mode = .done ∧
    (nextOf (step (restAt .done .none []))).map (·.mode) = some .done ∧
    (nextOf (step (restAt .done .none [.start (req 1 .slot1 none)]))).map (·.mode) = some .xfer := by decide +kernel

theorem witness_SlotAndCauseAreNeverRead : (nextOf (step (xferAt 0 0 [] [.rx 0x11]))).isSome = true := by decide +kernel

theorem witness_RunningAccumulatorIsChecksum : p3.length = 140 := by decide +kernel

theorem witness_ParseOfFrame : p3.length = 140 ∧ (p3.take 139).length ≠ 140 := by decide +kernel

/-- Two frames that differ at a header position outside `{8, 9}`. -/
theorem witness_HeaderBytesOutsideEchoAreIgnored : p3.length = 140 ∧ (p3.set 0 0x00).length = 140 ∧ p3 ≠ p3.set 0 0x00 ∧
    ∀ k, (10 ≤ k ∨ ∃ p ∈ Config.defaults.chkHdrPos, p.val = k) → p3[k]? = (p3.set 0 0x00)[k]? := by
  refine ⟨by decide +kernel, by decide +kernel, by decide +kernel, fun k hk => ?_⟩
  rw [List.getElem?_set_ne]
  obtain h | ⟨p, hp, h⟩ := hk
  · omega
  · simp only [Config.defaults, List.mem_cons, List.not_mem_nil, or_false] at hp
    obtain rfl | rfl := hp <;> simp at h <;> omega

theorem witness_ChecksumMissesPairedFlips : p3.length = 140 ∧ 10 ≤ 10 ∧ 10 < 137 ∧ 137 < 138 := by decide +kernel

/-- P3's frame as the answer to a READ of address 0: a valid result whose echo says 0x003F (as P13 and R-6). -/
theorem witness_ValidImpliesEchoedAddress : Inv (xferAt 140 0x3F p3 [.finish]) ∧
    (nextOf (step (xferAt 140 0x3F p3 [.finish]))).map (fun t => (t.mode, t.valid)) = some (.done, true) :=
  ⟨witness_inv_received _, by decide +kernel⟩

theorem witness_ReadRunsToFrameLevelOutcome :
    (restAt .fault .malformedResponse (answerEvents (.err [0x11] ⟨1⟩) ++ [.reset])).mode ≠ .xfer ∧
      (restAt .fault .malformedResponse (answerEvents (.err [0x11] ⟨1⟩) ++ [.reset])).events =
        answerEvents (.err [0x11] ⟨1⟩) ++ [.reset] ∧
      (65535 ≤ 65535 ∧ 65535 ≤ State.reset.cfg.maxAddr.toNat) ∧ ¬ (65536 ≤ 65535 ∧ 65536 ≤ State.reset.cfg.maxAddr.toNat) := by
  decide +kernel

theorem witness_FrameIsSentInLockstep : (restAt .idle .none ([0x11, 0x22].map Event.rx ++ [])).mode ≠ .xfer ∧
    build State.reset.cfg (req 0x1234 .slot2 none) = .ok ([0x81, 0x52, 0x00, 0x00, 0x12, 0x34] ++ List.replicate 134 0x00) ∧
    (restAt .idle .none ([0x11, 0x22].map Event.rx ++ [])).events = [0x11, 0x22].map Event.rx ++ [] := by decide +kernel

theorem witness_OutcomeDependsOnAnswerOnly :
    (restAt .idle .none (answerEvents (.ok []) ++ [])).cfg = (restAt .fault .transportError (answerEvents (.ok []) ++ [.reset])).cfg ∧
      (restAt .idle .none (answerEvents (.ok []) ++ [])).mode ≠ .xfer ∧
      (restAt .fault .transportError (answerEvents (.ok []) ++ [.reset])).mode ≠ .xfer ∧
      addrLegal State.reset.cfg 0 = true ∧ addrLegal State.reset.cfg 65535 = true := by decide

end Sys2Proof.Machine.Tests
end

section
/-! SUPPORT. Proofs about runs (00_scope R9, R11): what waits, what stops the machine, and that a run whose other agents keep
41_frame_sync R107 and 70_reset R181 goes on for ever and keeps the invariants of 10_state R38. -/

namespace Sys2Proof.Machine

/-! ## Waiting -/

/-- No request is ready exactly when CORE is in a transfer or none is pending. -/
theorem readyRequest_eq_none {s : State} : readyRequest s = none ↔ s.mode = .xfer ∨ s.port = none := by
  unfold readyRequest; split <;> simp_all

/-- A property whose states always have a next state with the property holds along runs of any length. -/
theorem runSteps_of_step {P : State → Prop} (hstep : ∀ s, P s → ∃ t, step s = .next t ∧ P t) (k : Nat) {s : State}
    (hs : P s) : ∃ t, runSteps k s = .next t ∧ P t := by
  induction k generalizing s with
  | zero => exact ⟨s, rfl, hs⟩
  | succ k ih =>
    obtain ⟨s', hs', hP⟩ := hstep s hs
    rw [runSteps_succ k hs']
    exact ih hP

/-- Settles O29: a state with nothing to react to is a fixed point of the step. -/
theorem noEventNoChange : Obligations.NoEventNoChange := by
  intro k s he hr
  have hwait : step s = .next s := step_wait (readyRequest_eq_none.mpr hr) he
  obtain ⟨t, ht, rfl⟩ := runSteps_of_step (P := (· = s)) (fun _ h => ⟨s, h ▸ hwait, rfl⟩) k rfl
  exact ht

/-! ## Stopping -/

/-- RX, END and FAIL, the events of the transport (00_scope R18). -/
def fromTransport (e : Event) : Prop :=
  (∃ b, e = .rx b) ∨ e = .finish ∨ ∃ c, e = .fail c

/-- READ has a next state in every mode. -/
theorem exec_read_next (req : Request) (s : State) : ∃ t, exec (.read req) s = .next t := by
  by_cases hm : s.mode = .xfer
  · exact ⟨_, exec_read_busy req hm⟩
  · exact ⟨_, exec_read_ready req hm⟩

theorem duringTransfer_fault {s after : State} {f : Fault} (h : duringTransfer s after = .fault f) :
    f = .unsolicitedTransportEvent ∧ s.mode ≠ .xfer := by
  unfold duringTransfer at h
  split at h
  · cases h
  · next hm => cases h; exact ⟨rfl, hm⟩

theorem duringTransfer_ne_refused (s after : State) (r : Refusal) : duringTransfer s after ≠ .refused r := by
  unfold duringTransfer
  split <;> nofun

theorem onReset_ne_fault (s : State) (f : Fault) : onReset s ≠ .fault f := by
  unfold onReset
  split <;> nofun

theorem onReset_refused {s : State} {r : Refusal} (h : onReset s = .refused r) :
    r = .resetDuringTransfer ∧ s.mode = .xfer := by
  unfold onReset at h
  split at h
  · next hm => cases h; exact ⟨rfl, hm⟩
  · cases h

/-- The events that fault (41_frame_sync R107). -/
theorem onEvent_fault {e : Event} {s : State} {f : Fault} (h : onEvent e s = .fault f) :
    f = .unsolicitedTransportEvent ∧ s.mode ≠ .xfer ∧ fromTransport e := by
  cases e with
  | start req =>
    obtain ⟨t, ht⟩ := exec_read_next req s
    cases ht.symm.trans h
  | rx b =>
    obtain ⟨hf, hm⟩ := duringTransfer_fault h
    exact ⟨hf, hm, .inl ⟨b, rfl⟩⟩
  | finish =>
    obtain ⟨hf, hm⟩ := duringTransfer_fault h
    exact ⟨hf, hm, .inr (.inl rfl)⟩
  | fail c =>
    obtain ⟨hf, hm⟩ := duringTransfer_fault h
    exact ⟨hf, hm, .inr (.inr ⟨c, rfl⟩)⟩
  | reset => exact absurd h (onReset_ne_fault s f)

/-- The events that are refused (70_reset R181). -/
theorem onEvent_refused {e : Event} {s : State} {r : Refusal} (h : onEvent e s = .refused r) :
    r = .resetDuringTransfer ∧ s.mode = .xfer ∧ e = .reset := by
  cases e with
  | start req =>
    obtain ⟨t, ht⟩ := exec_read_next req s
    cases ht.symm.trans h
  | rx b => exact absurd h (duringTransfer_ne_refused s _ r)
  | finish => exact absurd h (duringTransfer_ne_refused s _ r)
  | fail c => exact absurd h (duringTransfer_ne_refused s _ r)
  | reset =>
    obtain ⟨hr, hm⟩ := onReset_refused h
    exact ⟨hr, hm, rfl⟩

/-- A step answers a next state, unless it is the reaction to the first event. -/
theorem step_next_or_event (s : State) : (∃ t, step s = .next t) ∨
    ∃ e rest, s.events = e :: rest ∧ readyRequest s = none ∧ step s = onEvent e (withEvents rest s) := by
  cases hr : readyRequest s with
  | some req => exact .inl ⟨_, step_ready hr⟩
  | none =>
    cases he : s.events with
    | nil => exact .inl ⟨s, step_wait hr he⟩
    | cons e rest => exact .inr ⟨e, rest, rfl, rfl, step_event hr he⟩

theorem step_fault {s : State} {f : Fault} (h : step s = .fault f) : f = .unsolicitedTransportEvent ∧ s.mode ≠ .xfer ∧
    readyRequest s = none ∧ ∃ e rest, s.events = e :: rest ∧ fromTransport e := by
  obtain ⟨t, ht⟩ | ⟨e, rest, he, hr, hs⟩ := step_next_or_event s
  · cases ht.symm.trans h
  · obtain ⟨hf, hm, hfrom⟩ := onEvent_fault (hs.symm.trans h)
    exact ⟨hf, hm, hr, e, rest, he, hfrom⟩

theorem step_refused {s : State} {r : Refusal} (h : step s = .refused r) :
    r = .resetDuringTransfer ∧ s.mode = .xfer ∧ ∃ rest, s.events = .reset :: rest := by
  obtain ⟨t, ht⟩ | ⟨e, rest, he, -, hs⟩ := step_next_or_event s
  · cases ht.symm.trans h
  · obtain ⟨hr, hm, rfl⟩ := onEvent_refused (hs.symm.trans h)
    exact ⟨hr, hm, rest, he⟩

/-- Settles O26: only the reaction to an event can stop, and each event stops in one way at most. -/
theorem stopsOnlyForNamedReasons : Obligations.StopsOnlyForNamedReasons := by
  intro s
  constructor
  · intro f h
    obtain ⟨hf, hm, -, hev⟩ := step_fault h
    exact ⟨hf, hm, hev⟩
  · intro r h
    exact step_refused h

/-! ## The invariants (10_state R38): one lemma per operation, then the step -/

/-- The invariants say nothing of what the other agents will do. -/
theorem Inv.withAgents {s : State} (h : Inv s) (port : Option Request) (events : List Event) :
    Inv { s with port := port, events := events } :=
  ⟨h.rxfWf, h.idxBound, h.whenIdle, h.whenXfer, h.accXfer, h.whenDone, h.faultIff, h.whenFault⟩

theorem Inv.takeRequest {s : State} (h : Inv s) : Inv (takeRequest s) :=
  h.withAgents none s.events

theorem Inv.withEvents {s : State} (h : Inv s) (rest : List Event) : Inv (withEvents rest s) :=
  h.withAgents s.port rest

theorem Inv.holdRequest {s : State} (h : Inv s) (req : Request) : Inv (holdRequest req s) :=
  h.withAgents (some req) s.events

/-- Every aborting cause has a code other than NONE (60_exceptions R160). -/
theorem abortCode_ne_none (e : Abort) : abortCode e ≠ .none := by
  cases e <;> nofun

theorem Inv.raiseError {s : State} (h : Inv s) (e : Abort) : Inv (raiseError e s) where
  rxfWf := h.rxfWf
  idxBound := h.idxBound
  whenIdle := nofun
  whenXfer := nofun
  accXfer := nofun
  whenDone := nofun
  faultIff := by simp [abortCode_ne_none]
  whenFault := fun _ => ⟨rfl, rfl, rfl⟩

theorem Inv.acceptRequest {s : State} (h : Inv s) {req : Request} (hlegal : addrLegal s.cfg req.addrIn = true) :
    Inv (acceptRequest req s) where
  rxfWf := h.rxfWf
  idxBound := by simp
  whenIdle := nofun
  whenXfer := by
    intro _
    obtain ⟨hfield, hmax⟩ := addrLegal_iff.mp hlegal
    exact ⟨rfl, ⟨rfl, rfl, rfl⟩, (addrField_toNat hfield).trans_le hmax⟩
  accXfer := fun _ => rfl
  whenDone := nofun
  faultIff := by simp
  whenFault := nofun

theorem Inv.start {s : State} (h : Inv s) (req : Request) : Inv (start req s) := by
  obtain ⟨hlegal, heq⟩ | ⟨-, heq⟩ := start_cases req s
  · rw [heq]; exact h.acceptRequest hlegal
  · rw [heq]; exact h.raiseError .invalidAddress

/-- XCHG appends its byte to the bytes received (41_frame_sync R103). -/
theorem received_xchg {s : State} (b : Byte) (hi : s.idx.toNat < frameLen) :
    received (xchg ⟨s.idx.toNat, hi⟩ b s) = received s ++ [b] := by
  have hi' : s.idx.toNat < 140 := hi
  have hcount : min (s.idx + 1).toNat frameLen = s.idx.toNat + 1 := by rw [frameLen_eq]; bv_omega
  rw [received, received, xchg_idx, xchg_rxf, hcount, min_eq_left hi.le]
  exact Memory.bytes_write s.rxf ⟨s.idx.toNat, hi⟩ b

theorem Inv.xchg {s : State} (h : Inv s) (hm : s.mode = .xfer) (b : Byte) (hi : s.idx.toNat < frameLen) :
    Inv (xchg ⟨s.idx.toNat, hi⟩ b s) where
  rxfWf := Memory.write_wf _ b h.rxfWf
  idxBound := by
    have hi' : s.idx.toNat < 140 := hi
    simp; omega
  whenIdle := by simp [hm]
  whenXfer := h.whenXfer
  accXfer := by
    intro _
    have hlen : (received s).length = s.idx.toNat := by simpa [received] using hi.le
    rw [received_xchg b hi, xchg_acc, xchg_cfg, accumulateAll_append, hlen, Nat.zero_add, ← h.accXfer hm]
  whenDone := by simp [hm]
  faultIff := h.faultIff
  whenFault := h.whenFault

/-- EXTRA leaves the bytes received as they are (41_frame_sync R104). -/
theorem received_extra {s : State} (hi : ¬ s.idx.toNat < frameLen) : received (extra s) = received s := by
  have hcount : min s.idx.toNat frameLen = min (141 : BitVec 8).toNat frameLen := by rw [frameLen_eq] at *; bv_omega
  rw [received, received, hcount, extra_idx, extra_rxf]

theorem Inv.extra {s : State} (h : Inv s) (hm : s.mode = .xfer) (hi : ¬ s.idx.toNat < frameLen) : Inv (extra s) where
  rxfWf := h.rxfWf
  idxBound := by simp
  whenIdle := by simp [hm]
  whenXfer := h.whenXfer
  accXfer := by
    intro _
    rw [received_extra hi]
    exact h.accXfer hm
  whenDone := by simp [hm]
  faultIff := h.faultIff
  whenFault := h.whenFault

theorem Inv.deliver {s : State} (h : Inv s) (hm : s.mode = .xfer) (hi : s.idx.toNat = frameLen) :
    Inv (deliver (s.rxf.read posChk) (s.rxf.read posStat) s) where
  rxfWf := h.rxfWf
  idxBound := h.idxBound
  whenIdle := nofun
  whenXfer := nofun
  accXfer := nofun
  whenDone := fun _ => ⟨(h.whenXfer hm).1, BitVec.eq_of_toNat_eq hi, h.accXfer hm, rfl, rfl, rfl⟩
  faultIff := by simp [(h.whenXfer hm).1]
  whenFault := nofun

/-- RESET gives the invariants whatever held before (10_state R40; 70_reset R180). -/
theorem inv_resetCore (s : State) : Inv (resetCore s) where
  rxfWf := Memory.empty_wf
  idxBound := by simp
  whenIdle := fun _ => ⟨rfl, ⟨rfl, rfl, rfl⟩, rfl, rfl⟩
  whenXfer := nofun
  accXfer := nofun
  whenDone := nofun
  faultIff := by simp
  whenFault := nofun

/-- Every step keeps the invariants. -/
theorem step_keeps_inv {s t : State} (h : Inv s) (hs : step s = .next t) : Inv t := by
  cases step_cases hs with
  | ready req => exact h.takeRequest.start req
  | wait => exact h
  | started req rest => exact (h.withEvents rest).start req
  | held req rest => exact (h.withEvents rest).holdRequest req
  | exchange b rest _ _ hm hi => exact (h.withEvents rest).xchg hm b hi
  | beyond b rest _ _ hm hi => exact (h.withEvents rest).extra hm hi
  | malformed rest => exact (h.withEvents rest).raiseError _
  | delivered rest _ _ hm hi => exact (h.withEvents rest).deliver hm hi
  | failed c rest => exact (h.withEvents rest).raiseError _
  | cleared rest => exact inv_resetCore _

/-! ## The rules the other agents keep (41_frame_sync R107, 70_reset R181) -/

/-- In a transfer the script is read as it stands. -/
theorem keepsRules_busy {s : State} (hm : s.mode = .xfer) :
    keepsRules s = scriptKeepsRules s.cfg true s.port s.events := by
  simp [keepsRules, readyRequest_busy hm, hm]

/-- Outside a transfer, with no request pending, the script is read as it stands. -/
theorem keepsRules_rest {s : State} (hm : s.mode ≠ .xfer) (hp : s.port = none) :
    keepsRules s = scriptKeepsRules s.cfg false none s.events := by
  simp [keepsRules, readyRequest_eq_none.mpr (.inr hp), hm, hp]

/-- Outside a transfer a pending request is accepted or turned down first. -/
theorem keepsRules_ready {s : State} {req : Request} (hm : s.mode ≠ .xfer) (hp : s.port = some req) :
    keepsRules s = scriptKeepsRules s.cfg (addrLegal s.cfg req.addrIn) none s.events := by
  simp [keepsRules, readyRequest_eq_some.mpr ⟨hm, hp⟩]

/-- After START the script goes on in a transfer if and only if the request was legal. -/
theorem keepsRules_start {s : State} (req : Request) (hp : s.port = none) :
    keepsRules (start req s) = scriptKeepsRules s.cfg (addrLegal s.cfg req.addrIn) none s.events := by
  obtain ⟨hlegal, heq⟩ | ⟨hlegal, heq⟩ := start_cases req s
  · rw [heq, hlegal, keepsRules_busy (acceptRequest_mode req s)]
    simp [hp]
  · rw [heq, hlegal, keepsRules_rest (by simp) (by simpa using hp)]
    simp

/-- A byte received leaves the rest of the script as it is. -/
theorem keepsRules_received {s t : State} {b : Byte} (hm : s.mode = .xfer) (he : s.events = .rx b :: t.events)
    (hcfg : t.cfg = s.cfg) (hport : t.port = s.port) (ht : t.mode = .xfer) : keepsRules s = keepsRules t := by
  rw [keepsRules_busy hm, keepsRules_busy ht, he, hcfg, hport, scriptKeepsRules]

/-- When END or FAIL ends the transfer, the rest of the script is read after the held request, if there is one
(41_frame_sync R101; log entry 10). -/
theorem keepsRules_ended {s t : State} {e : Event} (hm : s.mode = .xfer) (he : s.events = e :: t.events)
    (hend : e = .finish ∨ ∃ c, e = .fail c) (hcfg : t.cfg = s.cfg) (hport : t.port = s.port) (ht : t.mode ≠ .xfer) :
    keepsRules s = keepsRules t := by
  rw [keepsRules_busy hm, he, ← hcfg, ← hport]
  cases hp : t.port with
  | none =>
    rw [keepsRules_rest ht hp]
    obtain rfl | ⟨c, rfl⟩ := hend <;> rw [scriptKeepsRules]
  | some req =>
    rw [keepsRules_ready ht hp]
    obtain rfl | ⟨c, rfl⟩ := hend <;> rw [scriptKeepsRules]

/-- Outside a transfer, where no request is ready none is pending. -/
theorem port_none_of_rest {s : State} (hr : readyRequest s = none) (hm : s.mode ≠ .xfer) : s.port = none :=
  (readyRequest_eq_none.mp hr).resolve_left hm

/-- A step neither breaks the rules nor mends a script that breaks them. -/
theorem step_keepsRules {s t : State} (hs : step s = .next t) : keepsRules s = keepsRules t := by
  cases step_cases hs with
  | ready req hm hp =>
    rw [keepsRules_ready hm hp]
    exact (keepsRules_start (s := takeRequest s) req rfl).symm
  | wait => rfl
  | started req rest he hr hm =>
    have hp := port_none_of_rest hr hm
    rw [keepsRules_rest hm hp, he]
    exact (keepsRules_start (s := withEvents rest s) req hp).symm
  | held req rest he hr hm =>
    rw [keepsRules_busy hm, he, scriptKeepsRules]
    exact (keepsRules_busy (s := holdRequest req (withEvents rest s)) hm).symm
  | exchange b rest he hr hm => exact keepsRules_received hm he rfl rfl hm
  | beyond b rest he hr hm => exact keepsRules_received hm he rfl rfl hm
  | malformed rest he hr hm => exact keepsRules_ended hm he (.inl rfl) rfl rfl nofun
  | delivered rest he hr hm => exact keepsRules_ended hm he (.inl rfl) rfl rfl nofun
  | failed c rest he hr hm => exact keepsRules_ended hm he (.inr ⟨c, rfl⟩) rfl rfl nofun
  | cleared rest he hr hm =>
    have hp := port_none_of_rest hr hm
    rw [keepsRules_rest hm hp, he, scriptKeepsRules]
    exact (keepsRules_rest (s := resetCore (withEvents rest s)) nofun hp).symm

/-- Outside a transfer no script that keeps the rules begins with RX, END or FAIL. -/
theorem scriptKeepsRules_fromTransport (cfg : Config) (held : Option Request) {e : Event} (he : fromTransport e)
    (rest : List Event) : scriptKeepsRules cfg false held (e :: rest) = false := by
  obtain ⟨b, rfl⟩ | rfl | ⟨c, rfl⟩ := he <;> rw [scriptKeepsRules]

/-- While the rules are kept a step has a next state: each reason to stop breaks one of them. -/
theorem step_next_of_keepsRules {s : State} (h : keepsRules s = true) : ∃ t, step s = .next t := by
  cases hs : step s with
  | next t => exact ⟨t, rfl⟩
  | fault f =>
    obtain ⟨-, hm, hr, e, rest, he, hfrom⟩ := step_fault hs
    rw [keepsRules_rest hm (port_none_of_rest hr hm), he, scriptKeepsRules_fromTransport _ _ hfrom] at h
    cases h
  | refused r =>
    obtain ⟨-, hm, rest, he⟩ := step_refused hs
    rw [keepsRules_busy hm, he, scriptKeepsRules] at h
    cases h

/-- Settles O27: rule keeping gives the next step and, with the invariants, is kept by it; so it is along the run. -/
theorem ruleKeepingRunsNeverStop : Obligations.RuleKeepingRunsNeverStop := by
  intro k s hk
  refine runSteps_of_step (P := fun t => keepsRules t = true ∧ (Inv s → Inv t)) ?_ k ⟨hk, id⟩
  rintro u ⟨hu, hinv⟩
  obtain ⟨t, ht⟩ := step_next_of_keepsRules hu
  exact ⟨t, ht, step_keepsRules ht ▸ hu, fun h => step_keeps_inv (hinv h) ht⟩

end Sys2Proof.Machine
end

section
/-! SUPPORT. Proofs about the state of CORE (10_state): the state after reset, what every step keeps (R38, R41), what no step
reads (R23, R30), and the output ports (R35, R36). -/

namespace Sys2Proof.Machine

/-! ## START and the step, in the direction a proof builds them -/

theorem start_legal {req : Request} {s : State} (h : addrLegal s.cfg req.addrIn = true) :
    start req s = acceptRequest req s :=
  if_pos h

theorem start_illegal {req : Request} {s : State} (h : addrLegal s.cfg req.addrIn = false) :
    start req s = raiseError .invalidAddress s :=
  if_neg (Bool.eq_false_iff.mp h)

@[simp] theorem start_cfg (req : Request) (s : State) : (start req s).cfg = s.cfg := by
  obtain ⟨-, heq⟩ | ⟨-, heq⟩ := start_cases req s <;> rw [heq]
  · exact acceptRequest_cfg req s
  · exact raiseError_cfg .invalidAddress s

/-- START enters `XFER` or `FAULT` (41_frame_sync R100). -/
theorem start_mode_ne_done (req : Request) (s : State) : (start req s).mode ≠ .done := by
  obtain ⟨-, heq⟩ | ⟨-, heq⟩ := start_cases req s <;> rw [heq] <;> nofun

theorem duringTransfer_busy {s : State} (h : s.mode = .xfer) (after : State) : duringTransfer s after = .next after :=
  if_pos h

theorem onReset_rest {s : State} (h : s.mode ≠ .xfer) : onReset s = .next (resetCore s) :=
  if_neg h

/-- The converse of `step_cases`: each of its cases is a step. -/
theorem step_of_stepCase {s t : State} (h : StepCase s t) : step s = .next t := by
  cases h with
  | ready req hm hp => exact step_ready (readyRequest_eq_some.mpr ⟨hm, hp⟩)
  | wait he hr => exact step_wait hr he
  | started req rest he hr hm => exact (step_event hr he).trans (exec_read_ready req hm)
  | held req rest he hr hm => exact (step_event hr he).trans (exec_read_busy req hm)
  | exchange b rest he hr hm hi =>
    have hxchg := receive_inside (s := withEvents rest s) b hi
    exact (step_event hr he).trans ((duringTransfer_busy hm _).trans (congrArg _ hxchg))
  | beyond b rest he hr hm hi =>
    have hextra := receive_beyond (s := withEvents rest s) b hi
    exact (step_event hr he).trans ((duringTransfer_busy hm _).trans (congrArg _ hextra))
  | malformed rest he hr hm hi =>
    have habort := endTransfer_malformed (s := withEvents rest s) hi
    exact (step_event hr he).trans ((duringTransfer_busy hm _).trans (congrArg _ habort))
  | delivered rest he hr hm hi =>
    have hparse := endTransfer_parse (s := withEvents rest s) hi
    exact (step_event hr he).trans ((duringTransfer_busy hm _).trans (congrArg _ hparse))
  | failed c rest he hr hm => exact (step_event hr he).trans (duringTransfer_busy hm _)
  | cleared rest he hr hm => exact (step_event hr he).trans (onReset_rest hm)

theorem nextReaction_ready {s : State} {req : Request} (hm : s.mode ≠ .xfer) (hp : s.port = some req) :
    nextReaction s = some (.start req) := by
  rw [nextReaction, readyRequest_eq_some.mpr ⟨hm, hp⟩]

theorem nextReaction_event {s : State} {e : Event} {rest : List Event} (hr : readyRequest s = none)
    (he : s.events = e :: rest) : nextReaction s = some e := by
  rw [nextReaction, hr, he, List.head?_cons]

/-! ## What every step keeps -/

/-- Settles O22: each case of the step keeps the invariants, by the lemma of its operation. -/
theorem stepKeepsInvariants : Obligations.StepKeepsInvariants :=
  fun _ _ h hs => step_keeps_inv h hs

/-- Settles O23: no operation writes the parameters, RESET among them. -/
theorem parametersNeverChange : Obligations.ParametersNeverChange := by
  intro s t hs
  cases step_cases hs with
  | ready req => exact start_cfg req (takeRequest s)
  | wait => rfl
  | started req rest => exact start_cfg req (withEvents rest s)
  | held => rfl
  | exchange => rfl
  | beyond => rfl
  | malformed => rfl
  | delivered => rfl
  | failed => rfl
  | cleared => rfl

/-! ## The result in DONE -/

/-- What a step from `DONE` can be: a wait, or the reaction to START or RESET, which leaves `DONE`. -/
theorem step_from_done {s t : State} (hdone : s.mode = .done) (hs : step s = .next t) :
    t = s ∨ (t.mode ≠ .done ∧ ((∃ req, nextReaction s = some (.start req)) ∨ nextReaction s = some .reset)) := by
  have hrest : s.mode ≠ .xfer := by rw [hdone]; nofun
  cases step_cases hs with
  | ready req hm hp => exact .inr ⟨start_mode_ne_done _ _, .inl ⟨req, nextReaction_ready hm hp⟩⟩
  | wait => exact .inl rfl
  | started req rest he hr => exact .inr ⟨start_mode_ne_done _ _, .inl ⟨req, nextReaction_event hr he⟩⟩
  | cleared rest he hr => exact .inr ⟨nofun, .inr (nextReaction_event hr he)⟩
  | held _ _ _ _ hm => exact absurd hm hrest
  | exchange _ _ _ _ hm => exact absurd hm hrest
  | beyond _ _ _ _ hm => exact absurd hm hrest
  | malformed _ _ _ hm => exact absurd hm hrest
  | delivered _ _ _ hm => exact absurd hm hrest
  | failed _ _ _ _ hm => exact absurd hm hrest

/-- Settles O34: the only step from `DONE` to `DONE` is the wait (log entry 9). -/
theorem resultIsImmutable : Obligations.ResultIsImmutable := by
  intro s t hdone hs
  obtain rfl | ⟨hleft, hreaction⟩ := step_from_done hdone hs
  · exact ⟨fun _ => rfl, fun hleft => absurd hdone hleft⟩
  · exact ⟨fun hstayed => absurd hstayed hleft, fun _ => hreaction⟩

/-! ## SLOT_R and CAUSE -/

/-- The state with the two registers that no rule reads set to the values given (10_state R23, R30). -/
def withUnread (slot : Slot) (cause : Cause) (s : State) : State :=
  { s with slotR := slot, cause := cause }

/-- START does the same whatever `SLOT_R` and `CAUSE` hold: the accepting branch writes the first, no branch the second. -/
theorem start_withUnread (slot : Slot) (cause : Cause) (req : Request) (s : State) :
    ∃ slot', start req (withUnread slot cause s) = withUnread slot' cause (start req s) := by
  obtain ⟨hlegal, heq⟩ | ⟨hillegal, heq⟩ := start_cases req s
  · exact ⟨req.slot, by rw [heq]; exact start_legal (s := withUnread slot cause s) hlegal⟩
  · exact ⟨slot, by rw [heq]; exact start_illegal (s := withUnread slot cause s) hillegal⟩

/-- Whatever `SLOT_R` and `CAUSE` hold, the same case of the step applies, and gives the same but for the two. -/
theorem stepCase_withUnread {s t : State} (slot : Slot) (cause : Cause) (h : StepCase s t) :
    ∃ slot' cause', StepCase (withUnread slot cause s) (withUnread slot' cause' t) := by
  cases h with
  | ready req hm hp =>
    obtain ⟨slot', heq⟩ := start_withUnread slot cause req (takeRequest s)
    exact ⟨slot', cause, heq ▸ .ready req hm hp⟩
  | wait he hr => exact ⟨slot, cause, .wait he hr⟩
  | started req rest he hr hm =>
    obtain ⟨slot', heq⟩ := start_withUnread slot cause req (withEvents rest s)
    exact ⟨slot', cause, heq ▸ .started req rest he hr hm⟩
  | held req rest he hr hm => exact ⟨slot, cause, .held req rest he hr hm⟩
  | exchange b rest he hr hm hi => exact ⟨slot, cause, .exchange (s := withUnread slot cause s) b rest he hr hm hi⟩
  | beyond b rest he hr hm hi => exact ⟨slot, cause, .beyond b rest he hr hm hi⟩
  | malformed rest he hr hm hi => exact ⟨slot, cause, .malformed rest he hr hm hi⟩
  | delivered rest he hr hm hi => exact ⟨slot, cause, .delivered rest he hr hm hi⟩
  | failed c rest he hr hm => exact ⟨slot, c, .failed c rest he hr hm⟩
  | cleared rest he hr hm => exact ⟨.slot1, ⟨0⟩, .cleared rest he hr hm⟩

/-- Settles O35: the inversion of the step, the same case from the other state, and the converse of the inversion. -/
theorem slotAndCauseAreNeverRead : Obligations.SlotAndCauseAreNeverRead := by
  intro s t slot cause hs
  obtain ⟨slot', cause', hcase⟩ := stepCase_withUnread slot cause (step_cases hs)
  exact ⟨slot', cause', step_of_stepCase hcase⟩

/-! ## The output ports -/

theorem whenDone_defined {s : State} (h : s.mode = .done) (v : PortValue) : whenDone s v = .next v :=
  if_pos h

theorem whenDone_undefined {s : State} (h : s.mode ≠ .done) (v : PortValue) : whenDone s v = .refused .resultUndefined :=
  if_neg h

/-- `ERR = 2` is `TransportError` (10_state R29). -/
theorem errBits_eq_two {e : ErrCode} : errBits e = 2 ↔ e = .transportError := by
  cases e <;> decide

theorem txActive_iff {s : State} : txActive s = true ↔ s.mode = .xfer ∧ s.idx.toNat < 140 := by
  simp [txActive]

/-- The result ports other than the data bytes are undefined outside `DONE` (10_state R35). -/
theorem readPort_result_undefined {s : State} (h : s.mode ≠ .done) :
    ∀ p ∈ [OutPort.resChk, OutPort.resStat, OutPort.resValid, OutPort.diagChk, OutPort.diagStat],
      readPort p s = .refused .resultUndefined := by
  simp [readPort, whenDone_undefined h]

/-- Settles O31: each port by its arm of `readPort`, under the condition its arm tests. -/
theorem hostPortsAsDefined : Obligations.HostPortsAsDefined := by
  intro s
  refine ⟨rfl, rfl, rfl, rfl, fun h => ?transport, fun h => ?otherCode, fun hdone => ?result, fun hother => ?noResult⟩
  case transport => exact if_pos (errBits_eq_two.mp h)
  case otherCode => exact if_neg (mt errBits_eq_two.mpr h)
  case result =>
    have hshown := whenDone_defined hdone
    exact ⟨fun _ _ => hshown _, hshown _, hshown _, hshown _, hshown _, hshown _⟩
  case noResult => exact ⟨fun _ => whenDone_undefined hother _, readPort_result_undefined hother⟩

/-- Settles O32: `tx_active` is the condition under which `tx_byte` is defined. -/
theorem transportPortsAsDefined : Obligations.TransportPortsAsDefined := by
  intro s
  refine ⟨?active, fun h => ?shown, fun h => ?undefined, rfl⟩
  case active => simp [readPort, txActive]
  case shown => exact if_pos (txActive_iff.mpr h)
  case undefined => exact if_neg (mt txActive_iff.mp h)

/-! ## The state after reset -/

/-- Settles O20: the registers and the ports that are always defined have their values by evaluation; the result ports and
`cause` are refused, as O31 says of `IDLE` and of `ERR = 0`. -/
theorem resetStateAndOutputs : Obligations.ResetStateAndOutputs := by
  obtain ⟨-, -, -, -, -, hcause, -, hresult⟩ := hostPortsAsDefined State.reset
  obtain ⟨hdata, hothers⟩ := hresult (by decide)
  exact ⟨rfl, rfl, rfl, rfl, rfl, rfl, rfl, rfl, rfl, rfl, rfl, rfl, hdata, hothers, hcause (by decide)⟩

/-- `IDLE` with `ERR`, the flags, `IDX` and `ACC` at 0 meets the invariants, whatever the other registers hold. -/
theorem inv_of_cleared {s : State} (hrxf : s.rxf.wf = true) (hmode : s.mode = .idle) (herr : s.err = .none)
    (hflags : flagsClear s) (hidx : s.idx = 0) (hacc : s.acc = 0x00) : Inv s where
  rxfWf := hrxf
  idxBound := by simp [hidx]
  whenIdle := fun _ => ⟨herr, hflags, hidx, hacc⟩
  whenXfer := by simp [hmode]
  accXfer := by simp [hmode]
  whenDone := by simp [hmode]
  faultIff := by simp [hmode, herr]
  whenFault := fun _ => hflags

/-- Settles O21: reset clears the registers `inv_of_cleared` asks for. -/
theorem resetMeetsInvariants : Obligations.ResetMeetsInvariants := by
  intro addrR slotR cidR rxf cause cfg port events hrxf
  exact inv_of_cleared hrxf rfl rfl ⟨rfl, rfl, rfl⟩ rfl rfl

end Sys2Proof.Machine
end

section
/-! SUPPORT. Proofs about the memory of a transfer (20_memory): the latched request (R63), and the one step that makes the
result appear (R57). -/

namespace Sys2Proof.Machine

/-- Settles O18: START, accepted outside `XFER` only, and RESET, refused in `XFER`, are the operations that write the three
registers; each other operation keeps them. -/
theorem latchedRequestIsKept : Obligations.LatchedRequestIsKept := by
  intro s t hbusy hs
  cases step_cases hs with
  | ready _ hm => exact absurd hbusy hm
  | started _ _ _ _ hm => exact absurd hbusy hm
  | cleared _ _ _ hm => exact absurd hbusy hm
  | wait => exact ⟨rfl, rfl, rfl⟩
  | held => exact ⟨rfl, rfl, rfl⟩
  | exchange => exact ⟨rfl, rfl, rfl⟩
  | beyond => exact ⟨rfl, rfl, rfl⟩
  | malformed => exact ⟨rfl, rfl, rfl⟩
  | delivered => exact ⟨rfl, rfl, rfl⟩
  | failed => exact ⟨rfl, rfl, rfl⟩

/-- The only step that enters `DONE` is END after 140 bytes, which delivers what `RXF` holds (42_response_parser R125). -/
theorem step_into_done {s t : State} (hbefore : s.mode ≠ .done) (hs : step s = .next t) (hafter : t.mode = .done) :
    ∃ rest, s.events = .finish :: rest ∧ s.idx.toNat = frameLen ∧
      t = deliver (s.rxf.read posChk) (s.rxf.read posStat) (withEvents rest s) := by
  cases step_cases hs with
  | delivered rest he _ _ hi => exact ⟨rest, he, hi, rfl⟩
  | ready => exact absurd hafter (start_mode_ne_done _ _)
  | started => exact absurd hafter (start_mode_ne_done _ _)
  | wait => exact absurd hafter hbefore
  | held => exact absurd hafter hbefore
  | exchange => exact absurd hafter hbefore
  | beyond => exact absurd hafter hbefore
  | malformed => cases hafter
  | failed => cases hafter
  | cleared => cases hafter

/-- Settles O33: `step_into_done` names the step, which keeps `RXF`; before it and after it the result ports are as O31 says
of a mode other than `DONE` and of `DONE`. -/
theorem resultAppearsAtOnce : Obligations.ResultAppearsAtOnce := by
  intro s t hbefore hs hafter
  obtain ⟨-, -, -, -, -, -, -, hundefined⟩ := hostPortsAsDefined s
  obtain ⟨hnoData, hnoResult⟩ := hundefined hbefore
  obtain ⟨-, -, -, -, -, -, hdefined, -⟩ := hostPortsAsDefined t
  obtain ⟨hdata, hchk, hstat, hflags⟩ := hdefined hafter
  obtain ⟨rest, he, hi, rfl⟩ := step_into_done hbefore hs hafter
  exact ⟨⟨rest, he⟩, hi, rfl, fun k h => ⟨hnoData k, hdata k h⟩, hnoResult, hchk, hstat, hflags⟩

end Sys2Proof.Machine
end

section
/-! SUPPORT. Proofs about the command frame (30_encoding): the decoder and the encoder undo each other (R70 to R74), the decoder
accepts the table's one row (R78), and the step runs the READ it fetches (R81). -/

namespace Sys2Proof

/-! ## What decodes and what it decodes to -/

/-- The bytes of the command frame whose address bytes are `msb` and `lsb`, in this order (30_encoding R71, R73). -/
theorem commandFrame_addrOfBytes (cfg : Config) (msb lsb : Byte) (c : CardId) :
    commandFrame cfg (Machine.addrOfBytes msb lsb) c =
      [cfg.accessCode, cfg.cmdRead, c.id1, c.id2, msb, lsb] ++ List.replicate padLen 0x00 := by
  rw [commandFrame, Machine.addrMsb_addrOfBytes, Machine.addrLsb_addrOfBytes]

/-- The command frames are the byte sequences that decode, each to its READ from slot 1 with the pair as override. -/
theorem decode_eq_ok_iff {cfg : Config} {f : List Byte} {i : Instr} :
    decode cfg f = .ok i ↔
      ∃ (a : SectorAddr) (c : CardId), f = commandFrame cfg a c ∧ i = .read ⟨a.toNat, .slot1, some c⟩ := by
  constructor
  · intro h
    obtain ⟨id1, id2, msb, lsb, hf, hi⟩ := decode_eq_ok h
    exact ⟨Machine.addrOfBytes msb lsb, ⟨id1, id2⟩, hf.trans (commandFrame_addrOfBytes cfg msb lsb ⟨id1, id2⟩).symm, hi⟩
  · rintro ⟨a, c, rfl, rfl⟩
    exact decode_commandFrame cfg a c

/-- The address operand of a 16-bit address is that address. -/
theorem addrField_of_toNat (a : SectorAddr) : Machine.addrField a.toNat = a :=
  (BitVec.ofNat_toNat 16 a).trans (BitVec.setWidth_eq a)

/-- Decoding the frame of a READ with a 16-bit address gives what the frame holds of it. -/
theorem decode_encode (cfg : Config) {req : Request} (h : req.addrIn ≤ 65535) :
    decode cfg (encode cfg (.read req)) = .ok (.read ⟨req.addrIn, .slot1, some (Machine.cardIdFor cfg req)⟩) := by
  rw [encode, decode_commandFrame, Machine.addrField_toNat h]

/-- An instruction whose operands its frame holds whole is what that frame stands for. -/
theorem frameForm_iff {i : Instr} :
    i.frameForm = true ↔ ∃ (addr : Nat) (c : CardId), addr ≤ 65535 ∧ i = .read ⟨addr, .slot1, some c⟩ := by
  obtain ⟨addr, slot, ovr⟩ := i
  cases ovr <;> simp [Instr.frameForm]

/-- Settles O2: `decode_encode`; an instruction in frame form has slot 1 and a pair, so it is the one the frame stands for. -/
theorem decodeInvertsEncode : Obligations.DecodeInvertsEncode := by
  refine ⟨fun cfg req h => decode_encode cfg h, ?_⟩
  intro cfg i hform
  obtain ⟨addr, c, haddr, rfl⟩ := frameForm_iff.mp hform
  exact decode_encode cfg (req := ⟨addr, .slot1, some c⟩) haddr

/-- Settles O3: only command frames decode, and the READ of one has its address and its pair as operands. -/
theorem encodeInvertsDecode : Obligations.EncodeInvertsDecode := by
  intro cfg f i h
  obtain ⟨a, c, rfl, rfl⟩ := decode_eq_ok_iff.mp h
  show commandFrame cfg (Machine.addrField a.toNat) c = commandFrame cfg a c
  rw [addrField_of_toNat]

/-! ## The table's row (30_encoding R78) -/

/-- The mask passes every bit at the fixed positions. -/
theorem tableMask_fixed {k : Nat} (h : k < 2 ∨ 6 ≤ k) : tableMask k = BitVec.allOnes 8 :=
  if_neg (by omega)

/-- The mask passes no bit at the operand positions. -/
theorem tableMask_operand {k : Nat} (hlow : 2 ≤ k) (hhigh : k < 6) : tableMask k = 0x00 :=
  if_pos (by omega)

/-- The match is zero from the operand positions on. -/
theorem tableMatch_of_two_le (cfg : Config) {k : Nat} (h : 2 ≤ k) : tableMatch cfg k = 0x00 := by
  rw [tableMatch, if_neg (by omega), if_neg (by omega)]

/-- A byte agrees with the row at a fixed position exactly when it is the byte of the match. -/
theorem agrees_fixed_iff (cfg : Config) (b : Byte) {k : Nat} (h : k < 2 ∨ 6 ≤ k) :
    b &&& tableMask k = tableMatch cfg k ↔ b = tableMatch cfg k := by
  rw [tableMask_fixed h, BitVec.and_allOnes]

/-- Every byte agrees with the row at an operand position. -/
theorem agrees_operand (cfg : Config) (b : Byte) {k : Nat} (hlow : 2 ≤ k) (hhigh : k < 6) :
    b &&& tableMask k = tableMatch cfg k := by
  rw [tableMask_operand hlow hhigh, tableMatch_of_two_le cfg hlow]
  exact BitVec.and_zero

@[simp] theorem commandFrame_length (cfg : Config) (a : SectorAddr) (c : CardId) : (commandFrame cfg a c).length = 140 := by
  simp [commandFrame]

/-- At the fixed positions a command frame holds the bytes of the match. -/
theorem commandFrame_getElem_fixed (cfg : Config) (a : SectorAddr) (c : CardId) {k : Nat} (h : k < 2 ∨ 6 ≤ k)
    (hk : k < (commandFrame cfg a c).length) : (commandFrame cfg a c)[k] = tableMatch cfg k := by
  rcases h with hlow | hhigh
  · interval_cases k <;> rfl
  · rw [tableMatch_of_two_le cfg (by omega)]
    simp only [commandFrame]
    rw [List.getElem_append_right (by simpa using hhigh), List.getElem_replicate]

/-- The command frame with the operand bytes of a sequence that agrees with the row is that sequence. -/
theorem eq_commandFrame_of_agrees {cfg : Config} {f : List Byte} (hlen : f.length = 140)
    (hrow : ∀ (k : Nat) (h : k < f.length), f[k] &&& tableMask k = tableMatch cfg k) :
    f = commandFrame cfg (Machine.addrOfBytes f[4] f[5]) ⟨f[2], f[3]⟩ := by
  refine List.ext_getElem (by simpa using hlen) fun k hk hframe => ?_
  by_cases hfixed : k < 2 ∨ 6 ≤ k
  · rw [commandFrame_getElem_fixed cfg _ _ hfixed, ← agrees_fixed_iff cfg f[k] hfixed]
    exact hrow k hk
  · have hoperand : 2 ≤ k ∧ k < 6 := by omega
    obtain ⟨hlow, hhigh⟩ := hoperand
    simp only [commandFrame_addrOfBytes]
    interval_cases k <;> rfl

/-- The command frames are the sequences of 140 bytes that agree with the row at every position. -/
theorem exists_commandFrame_iff_agrees (cfg : Config) (f : List Byte) :
    (∃ (a : SectorAddr) (c : CardId), f = commandFrame cfg a c) ↔
      f.length = 140 ∧ ∀ (k : Nat) (h : k < f.length), f[k] &&& tableMask k = tableMatch cfg k := by
  constructor
  · rintro ⟨a, c, rfl⟩
    refine ⟨commandFrame_length cfg a c, fun k hk => ?_⟩
    by_cases hfixed : k < 2 ∨ 6 ≤ k
    · exact (agrees_fixed_iff cfg _ hfixed).mpr (commandFrame_getElem_fixed cfg a c hfixed hk)
    · exact agrees_operand cfg _ (by omega) (by omega)
  · rintro ⟨hlen, hrow⟩
    exact ⟨_, _, eq_commandFrame_of_agrees hlen hrow⟩

/-- Settles O4: the frames that decode are the command frames, and these are the frames that agree with the row. -/
theorem decoderAcceptsExactlyTableRow : Obligations.DecoderAcceptsExactlyTableRow := by
  refine ⟨?mask, fun cfg => ⟨rfl, rfl, fun k _ h => tableMatch_of_two_le cfg h⟩, ⟨rfl, rfl⟩, ?accepts⟩
  case mask =>
    intro k _
    by_cases hfixed : k < 2 ∨ 6 ≤ k
    · rw [if_neg (by omega)]
      exact tableMask_fixed hfixed
    · rw [if_pos (by omega)]
      exact tableMask_operand (by omega) (by omega)
  case accepts =>
    intro cfg f
    rw [← exists_commandFrame_iff_agrees]
    constructor
    · rintro ⟨i, h⟩
      obtain ⟨a, c, hf, -⟩ := decode_eq_ok_iff.mp h
      exact ⟨a, c, hf⟩
    · rintro ⟨a, c, rfl⟩
      exact ⟨_, decode_commandFrame cfg a c⟩

/-! ## Frames written out -/

/-- A frame written out byte by byte decodes to the READ of the address its bytes make. -/
theorem decode_writtenFrame (cfg : Config) (c : CardId) (msb lsb : Byte) :
    decode cfg ([cfg.accessCode, cfg.cmdRead, c.id1, c.id2, msb, lsb] ++ List.replicate padLen 0x00) =
      .ok (.read ⟨(Machine.addrOfBytes msb lsb).toNat, .slot1, some c⟩) := by
  rw [← commandFrame_addrOfBytes, decode_commandFrame]

/-- A sequence of another length is rejected with its length. -/
theorem decode_wrongLength (cfg : Config) {f : List Byte} (h : f.length ≠ 140) :
    decode cfg f = .error (.wrongLength f.length) := by
  unfold decode
  split
  · exact if_pos (by simpa using h)
  · rfl

/-- A sequence of 140 bytes with the access code and another command code is rejected with that code. -/
theorem decode_notReadCommand (cfg : Config) {cmd : Byte} (id1 id2 msb lsb : Byte) {pad : List Byte} (hlen : pad.length = 134)
    (hcmd : cmd ≠ cfg.cmdRead) :
    decode cfg ([cfg.accessCode, cmd, id1, id2, msb, lsb] ++ pad) = .error (.notReadCommand cmd) := by
  simp [decode, hlen, hcmd]

/-- The table word of a READ of sector 0x003F is that READ's command frame, position 0 in the lowest byte (log entry 14). -/
theorem tableWordBytes_sector_003F :
    tableWordBytes 1120 0x3F0000005281 = commandFrame Config.defaults 0x003F ⟨0x00, 0x00⟩ := by
  decide +kernel

/-- Settles O1: three command frames, one with another command code, and one of 139 bytes. -/
theorem writtenFramesDecode : Obligations.WrittenFramesDecode := by
  refine ⟨?_, ?_, ?_, ?_, ?_⟩
  · exact decode_writtenFrame Config.defaults ⟨0x00, 0x00⟩ 0x12 0x34
  · exact decode_writtenFrame Config.defaults ⟨0x11, 0x22⟩ 0x03 0xFF
  · rw [decodeTableWord, decodeWordFor, tableWordBytes_sector_003F, decode_commandFrame]
    rfl
  · exact decode_notReadCommand Config.defaults 0x00 0x00 0x12 0x34 (by simp) (by decide)
  · exact decode_wrongLength Config.defaults (by simp)

namespace Machine

/-! ## The step runs the READ it fetches (30_encoding R81) -/

/-- The step of a ready request is the READ of it, with the request taken off the port (41_frame_sync R101). -/
theorem step_eq_exec_of_ready {s : State} {req : Request} (hm : s.mode ≠ .xfer) (hp : s.port = some req) :
    step s = exec (.read req) (takeRequest s) :=
  (step_ready (readyRequest_eq_some.mpr ⟨hm, hp⟩)).trans (exec_read_ready (s := takeRequest s) req hm).symm

/-- A word that decodes puts its instruction's request on the port. -/
theorem withFetchWord_port {s : State} {nbits w : Nat} {i : Instr} (h : decodeWordFor s.cfg nbits w = some i) :
    (s.withFetchWord nbits w).port = some i.request := by
  rw [State.withFetchWord, h]
  rfl

/-- Settles O11: a word's request is ready in the next step, and a START event with no request ready is the next reaction. -/
theorem stepRunsDecodedRead : Obligations.StepRunsDecodedRead := by
  refine ⟨?word, fun _ _ => rfl, ?start⟩
  case word =>
    intro s nbits w i hm hw
    cases i with
    | read req => exact step_eq_exec_of_ready (s := s.withFetchWord nbits w) hm (withFetchWord_port hw)
  case start =>
    intro s req rest hr he
    exact step_event (readyRequest_eq_none.mpr hr) he

end Machine

end Sys2Proof
end

section
/-! SUPPORT. Proofs about the command frame assembler (40_frame_builder): the byte at each position (R90), the frame BUILD makes
(R91, R94), and that the bytes of a transfer are that frame (R92). -/

namespace Sys2Proof.Machine

/-! ## The operands of a frame -/

/-- The first address byte sent is the address shifted down by 8 (30_encoding R73). -/
theorem addrMsb_eq_shift (a : SectorAddr) : addrMsb a = (a >>> 8).setWidth 8 :=
  BitVec.setWidth_ushiftRight_eq_extractLsb.symm

/-- The second address byte sent is the address under the mask `0xFF` (30_encoding R73). -/
theorem addrLsb_eq_mask (a : SectorAddr) : addrLsb a = (a &&& 0xFF).setWidth 8 := by
  rw [BitVec.setWidth_and]
  exact (BitVec.and_allOnes.trans (BitVec.setWidth_eq_extractLsb' (by decide))).symm

/-- The first address byte of a request, by division; the byte is the same before and after the cut to 16 bits. -/
theorem addrMsb_addrField (n : Nat) : addrMsb (addrField n) = BitVec.ofNat 8 (n / 256) := by
  apply BitVec.eq_of_toNat_eq
  have hcut : n % 65536 / 256 % 256 = n / 256 % 256 := by omega
  simpa [addrMsb, addrField, Nat.shiftRight_eq_div_pow] using hcut

/-- The second address byte of a request, by remainder. -/
theorem addrLsb_addrField (n : Nat) : addrLsb (addrField n) = BitVec.ofNat 8 (n % 256) := by
  apply BitVec.eq_of_toNat_eq
  simp [addrLsb, addrField]

/-- The override where there is one, otherwise the slot's pair (30_encoding R74). -/
theorem cardIdFor_eq_getD (cfg : Config) (req : Request) :
    cardIdFor cfg req = req.cidOvr.getD (slotCardId cfg req.slot) := by
  rw [cardIdFor]
  cases req.cidOvr <;> rfl

/-! ## BUILD -/

theorem build_legal {cfg : Config} {req : Request} (h : addrLegal cfg req.addrIn = true) :
    build cfg req = .ok (commandFrame cfg (addrField req.addrIn) (cardIdFor cfg req)) :=
  if_pos h

theorem build_illegal {cfg : Config} {req : Request} (h : addrLegal cfg req.addrIn = false) :
    build cfg req = .error .invalidAddress :=
  if_neg (Bool.eq_false_iff.mp h)

/-- Settles O6: BUILD tests the two bounds of a legal address, and the frame it makes holds the operands' bytes. -/
theorem buildGivesFrameOrInvalidAddress : Obligations.BuildGivesFrameOrInvalidAddress := by
  intro cfg req
  refine ⟨fun h => ⟨_, build_legal (addrLegal_iff.mpr h), commandFrame_length .., ?frame⟩, fun h => build_illegal ?illegal⟩
  case frame => rw [commandFrame, addrMsb_addrField, addrLsb_addrField, cardIdFor_eq_getD]
  case illegal => exact Bool.eq_false_iff.mpr (mt addrLegal_iff.mp h)

/-! ## TX -/

/-- From position 6 on TX gives the placeholder byte. -/
theorem tx_placeholder (s : State) {i : Nat} (h : 6 ≤ i) : tx s i = 0x00 := by
  obtain ⟨k, rfl⟩ := Nat.exists_eq_add_of_le' h
  rfl

/-- TX reads the parameters, `ADDR_R` and `CID_R` only. -/
theorem tx_eq_of_latched_eq {s t : State} (hcfg : t.cfg = s.cfg) (haddr : t.addrR = s.addrR) (hcid : t.cidR = s.cidR)
    (i : Nat) : tx t i = tx s i := by
  unfold tx
  rw [hcfg, haddr, hcid]

/-- The bytes presented at positions 0 to 139 are the command frame of the latched address and pair. -/
theorem map_tx_range (s : State) : (List.range 140).map (tx s) = commandFrame s.cfg s.addrR s.cidR := by
  have hpad : (List.range 134).map (fun k => tx s (6 + k)) = List.replicate 134 0x00 :=
    List.eq_replicate_iff.mpr ⟨by simp, by simp [tx_placeholder]⟩
  rw [show 140 = 6 + 134 from rfl, List.range_add, List.map_append, List.map_map]
  exact congrArg (_ ++ ·) hpad

/-- BUILD of a legal request is what TX gives once the request is accepted. -/
theorem build_eq_tx_acceptRequest {req : Request} {s : State} (h : addrLegal s.cfg req.addrIn = true) :
    build s.cfg req = .ok ((List.range 140).map (tx (acceptRequest req s))) := by
  rw [build_legal h, map_tx_range, acceptRequest_cfg, acceptRequest_addrR, acceptRequest_cidR]

/-- Settles O5: the first six positions by their arms of `tx`, the address bytes as shift and mask, the rest placeholders. -/
theorem txByPosition : Obligations.TxByPosition :=
  fun s => ⟨rfl, rfl, rfl, rfl, addrMsb_eq_shift s.addrR, addrLsb_eq_mask s.addrR, fun _ h _ => tx_placeholder s h⟩

/-- Settles O7: START and BUILD make the same test of the address, START latches what BUILD writes, and in the transfer the
latched registers (O18) and the parameters (O23) are kept. -/
theorem txSequenceIsBuild : Obligations.TxSequenceIsBuild := by
  refine ⟨fun req s hm => ⟨start req s, exec_read_ready req hm, ?started⟩, fun s t hbusy hs => ?kept⟩
  case started =>
    obtain ⟨hlegal, heq⟩ | ⟨hillegal, heq⟩ := start_cases req s <;> rw [heq]
    · exact ⟨fun _ => build_eq_tx_acceptRequest hlegal, fun hrest => absurd rfl hrest⟩
    · exact ⟨nofun, fun _ => build_illegal hillegal⟩
  case kept =>
    obtain ⟨haddr, -, hcid⟩ := latchedRequestIsKept s t hbusy hs
    exact tx_eq_of_latched_eq (parametersNeverChange s t hs) haddr hcid

end Sys2Proof.Machine
end

section
/-! SUPPORT. Proofs about the frame synchronizer (41_frame_sync): START in each mode (R100, R101), each event of a transfer
(R103 to R107), and the wait in a transfer (R110). -/

namespace Sys2Proof.Machine

/-! ## START (41_frame_sync R100, R101) -/

/-- An address above one of the two bounds is illegal (30_encoding R73). -/
theorem addrLegal_eq_false {cfg : Config} {a : Nat} (h : ¬ (a ≤ 65535 ∧ a ≤ cfg.maxAddr.toNat)) :
    addrLegal cfg a = false :=
  Bool.eq_false_iff.mpr (mt addrLegal_iff.mp h)

/-- Outside `XFER` READ of a legal address is accepted. -/
theorem exec_read_legal {req : Request} {s : State} (hm : s.mode ≠ .xfer) (h : addrLegal s.cfg req.addrIn = true) :
    exec (.read req) s = .next (acceptRequest req s) :=
  (exec_read_ready req hm).trans (congrArg _ (start_legal h))

/-- Outside `XFER` READ of an illegal address is error entry. -/
theorem exec_read_illegal {req : Request} {s : State} (hm : s.mode ≠ .xfer) (h : addrLegal s.cfg req.addrIn = false) :
    exec (.read req) s = .next (raiseError .invalidAddress s) :=
  (exec_read_ready req hm).trans (congrArg _ (start_illegal h))

/-- Settles O8: the two branches are told apart by the test of the address. -/
theorem readIssuesStart : Obligations.ReadIssuesStart := by
  intro req s hm
  rw [← cardIdFor_eq_getD]
  exact ⟨fun h => exec_read_legal hm (addrLegal_iff.mpr h), fun h => exec_read_illegal hm (addrLegal_eq_false h)⟩

/-- The inversion of READ: the request is held, accepted, or turned down. -/
theorem exec_read_cases {req : Request} {s t : State} (h : exec (.read req) s = .next t) :
    (s.mode = .xfer ∧ t = holdRequest req s) ∨ (s.mode ≠ .xfer ∧ t = acceptRequest req s) ∨
      (s.mode ≠ .xfer ∧ t = raiseError .invalidAddress s) := by
  by_cases hm : s.mode = .xfer
  · rw [exec_read_busy req hm] at h
    cases h
    exact .inl ⟨hm, rfl⟩
  · rw [exec_read_ready req hm] at h
    cases h
    obtain ⟨-, heq⟩ | ⟨-, heq⟩ := start_cases req s
    · exact .inr (.inl ⟨hm, heq⟩)
    · exact .inr (.inr ⟨hm, heq⟩)

/-- Settles O9: each of the three things READ can do writes its own registers only. -/
theorem readLeavesUnchanged : Obligations.ReadLeavesUnchanged := by
  intro req s t h
  obtain ⟨hm, rfl⟩ | ⟨hm, rfl⟩ | ⟨hm, rfl⟩ := exec_read_cases h
  · exact ⟨fun _ => rfl, rfl, rfl, rfl, fun hrest => absurd hm hrest, fun _ => ⟨rfl, rfl, rfl, rfl, rfl⟩, fun _ => rfl⟩
  · exact ⟨fun _ => rfl, rfl, rfl, rfl, fun _ => rfl, nofun, fun hbusy => absurd hbusy hm⟩
  · exact ⟨fun _ => rfl, rfl, rfl, rfl, fun _ => rfl, fun _ => ⟨rfl, rfl, rfl, rfl, rfl⟩, fun hbusy => absurd hbusy hm⟩

/-- In a transfer a step keeps the pending request, unless it is the START that replaces it. -/
theorem step_busy_port {s t : State} (hbusy : s.mode = .xfer) (hs : step s = .next t) :
    t.port = s.port ∨ ∃ req rest, s.events = .start req :: rest ∧ t.port = some req := by
  cases step_cases hs with
  | held req rest he => exact .inr ⟨req, rest, he, rfl⟩
  | ready _ hm => exact absurd hbusy hm
  | started _ _ _ _ hm => exact absurd hbusy hm
  | cleared _ _ _ hm => exact absurd hbusy hm
  | wait => exact .inl rfl
  | exchange => exact .inl rfl
  | beyond => exact .inl rfl
  | malformed => exact .inl rfl
  | delivered => exact .inl rfl
  | failed => exact .inl rfl

/-- Settles O10: the hold of a START, what keeps it, and the step that lifts it. -/
theorem startWhileBusyIsHeld : Obligations.StartWhileBusyIsHeld :=
  ⟨fun req _ hm => exec_read_busy req hm, fun _ _ => step_busy_port, fun _ _ => step_eq_exec_of_ready⟩

/-! ## The events of a transfer (41_frame_sync R103 to R107) -/

/-- ACC takes the byte of a checksummed position. -/
theorem accumulate_checked {cfg : Config} {i : Nat} (h : inChecksum cfg i = true) (acc b : Byte) :
    accumulate cfg i acc b = acc ^^^ b := by
  rw [accumulate, h, cond_true]

/-- ACC does not take the byte of any other position. -/
theorem accumulate_unchecked {cfg : Config} {i : Nat} (h : inChecksum cfg i = false) (acc b : Byte) :
    accumulate cfg i acc b = acc := by
  rw [accumulate, h, cond_false]

/-- Settles O12: the step is XCHG; the byte it presents is what `tx_byte` shows (O32), a read after its write is
`Memory.read_write`, and `accumulate` tests for the positions named by `inChecksum_iff`. -/
theorem exchangeStoresAndAccumulates : Obligations.ExchangeStoresAndAccumulates := by
  intro s b rest hm hi he
  obtain ⟨-, hpresented, -⟩ := transportPortsAsDefined s
  refine ⟨hpresented ⟨hm, hi⟩, xchg ⟨s.idx.toNat, hi⟩ b (withEvents rest s),
    step_of_stepCase (.exchange b rest he (readyRequest_busy hm) hm hi), fun pos => ?stored, fun h => ?checked,
    fun h => ?unchecked, ?counted, rfl⟩
  case stored => simp [Memory.read_write, Fin.ext_iff]
  case checked => exact accumulate_checked ((inChecksum_iff _ _).mpr h) _ _
  case unchecked => exact accumulate_unchecked (Bool.eq_false_iff.mpr (mt (inChecksum_iff _ _).mp h)) _ _
  case counted =>
    rw [xchg_idx, withEvents_idx]
    bv_omega

/-- Settles O13: beyond the frame the step is EXTRA, and `tx_active` is 0. -/
theorem extraByteIsOnlyCounted : Obligations.ExtraByteIsOnlyCounted := by
  intro s b rest hm hi he
  obtain ⟨hactive, -⟩ := transportPortsAsDefined s
  exact ⟨by rw [hactive, decide_eq_false (by omega)],
    step_of_stepCase (.beyond b rest he (readyRequest_busy hm) hm (Nat.not_lt.mpr hi))⟩

theorem chkBad_eq_decide (computed received : Byte) : chkBad computed received = decide (computed ≠ received) := by
  rw [decide_not]
  rfl

theorem statBad_eq_decide (cfg : Config) (status : Byte) : statBad cfg status = decide (status ∉ cfg.statusOk) := by
  simp [statBad, statusGood]

/-- VALID is neither CHKERR nor STATERR (42_response_parser R124). -/
theorem validResult_eq_decide (cfg : Config) (computed received status : Byte) :
    validResult (chkBad computed received) (statBad cfg status) =
      decide (computed = received ∧ status ∈ cfg.statusOk) := by
  simp [validResult, chkBad_eq_decide, statBad_eq_decide]

/-- Settles O14: the step is error entry or the delivery of the result, as END tests the count; the flags delivered are the
conditions of R124 and R125. -/
theorem endJudgesOrAborts : Obligations.EndJudgesOrAborts := by
  intro s rest hm he
  have hr := readyRequest_busy hm
  refine ⟨fun hi => step_of_stepCase (.malformed rest he hr hm hi), fun hi => ?judged⟩
  rw [← chkBad_eq_decide, ← statBad_eq_decide, ← validResult_eq_decide]
  exact step_of_stepCase (.delivered rest he hr hm hi)

/-- Settles O15: the step is error entry with the transport's cause, and FAIL makes no test of the count. -/
theorem failRaisesTransportError : Obligations.FailRaisesTransportError :=
  fun _ c rest hm he => step_of_stepCase (.failed c rest he (readyRequest_busy hm) hm)

theorem duringTransfer_rest {s : State} (h : s.mode ≠ .xfer) (after : State) :
    duringTransfer s after = .fault .unsolicitedTransportEvent :=
  if_neg h

/-- Settles O17: with no request to accept the step is the reaction to the event, which only a transfer allows. -/
theorem unsolicitedTransportEventStops : Obligations.UnsolicitedTransportEventStops := by
  intro s e rest hm hp he hfrom
  rw [step_event (readyRequest_eq_none.mpr (.inr hp)) he]
  obtain ⟨b, rfl⟩ | rfl | ⟨c, rfl⟩ := hfrom
  · exact duringTransfer_rest hm _
  · exact duringTransfer_rest hm _
  · exact duringTransfer_rest hm _

/-! ## Waiting in a transfer (41_frame_sync R110) -/

/-- CORE is in a transfer, and nothing that will happen ends it. -/
def Unending (s : State) : Prop :=
  s.mode = .xfer ∧ ∀ e ∈ s.events, endsTransfer e = false

/-- A step of a transfer that nothing ends is a wait, a held START, or a byte received, and the transfer goes on. -/
theorem step_unending {s : State} (h : Unending s) : ∃ t, step s = .next t ∧ Unending t := by
  obtain ⟨hm, hev⟩ := h
  have hr := readyRequest_busy hm
  cases he : s.events with
  | nil => exact ⟨s, step_wait hr he, hm, hev⟩
  | cons e rest =>
    rw [he] at hev
    obtain ⟨hfirst, hrest⟩ := List.forall_mem_cons.mp hev
    cases e with
    | start req => exact ⟨_, step_of_stepCase (.held req rest he hr hm), hm, hrest⟩
    | rx b =>
      by_cases hi : s.idx.toNat < frameLen
      · exact ⟨_, step_of_stepCase (.exchange b rest he hr hm hi), hm, hrest⟩
      · exact ⟨_, step_of_stepCase (.beyond b rest he hr hm hi), hm, hrest⟩
    | finish => cases hfirst
    | fail c => cases hfirst
    | reset => cases hfirst

/-- Settles O28: a transfer that nothing ends goes on along the run, and `busy` shows it (O31). -/
theorem transferEndsOnlyByTransport : Obligations.TransferEndsOnlyByTransport := by
  intro k s hm hev
  obtain ⟨t, ht, hbusy, -⟩ := runSteps_of_step (fun _ => step_unending) k ⟨hm, hev⟩
  obtain ⟨hport, -⟩ := hostPortsAsDefined t
  exact ⟨t, ht, hbusy, hport.trans (by rw [hbusy]; rfl)⟩

end Sys2Proof.Machine
end

section
/-! SUPPORT. Proofs about the whole course of a READ (41_frame_sync R108, R111): what is presented and stored byte by byte, and
that the steps of an answer end in the outcome of the frame-level READ (43_read_operation R140). -/

namespace Sys2Proof.Machine

/-! ## The frame is sent in lockstep (41_frame_sync R111) -/

/-- After an accepted START the first `k` bytes to arrive are received, in as many steps. -/
theorem got_take_run (req : Request) {s : State} {r : List Byte} {rest : List Event}
    (he : s.events = r.map Event.rx ++ rest) {k : Nat} (hk : k ≤ r.length) :
    ∃ t, runSteps k (acceptRequest req s) = .next t ∧ Got (r.take k) t ∧ SameRequest (acceptRequest req s) t := by
  have he' : (acceptRequest req s).events = (r.take k).map Event.rx ++ ((r.drop k).map Event.rx ++ rest) := by
    rw [← List.append_assoc, ← List.map_append, List.take_append_drop]
    exact he
  obtain ⟨t, ht, hgot, hsame, -⟩ := got_run (r.take k) (got_accepted req s) he'
  rw [List.length_take_of_le hk] at ht
  exact ⟨t, ht, hgot, hsame⟩

/-- BUILD makes a frame of legal requests only. -/
theorem addrLegal_of_build {cfg : Config} {req : Request} {f : List Byte} (h : build cfg req = .ok f) :
    addrLegal cfg req.addrIn = true := by
  cases hlegal : addrLegal cfg req.addrIn with
  | true => rfl
  | false =>
    rw [build_illegal hlegal] at h
    cases h

/-- Settles O42: BUILD is the sequence of TX once the request is accepted (O7), the received bytes give the count and the buffer,
and no step of the transfer changes TX. -/
theorem frameIsSentInLockstep : Obligations.FrameIsSentInLockstep := by
  intro s req f r rest hm hbuild he
  have hlegal := addrLegal_of_build hbuild
  cases (build_eq_tx_acceptRequest hlegal).symm.trans hbuild
  refine ⟨acceptRequest req s, exec_read_legal hm hlegal, fun k hk => ?_⟩
  obtain ⟨t, ht, hgot, hsame⟩ := got_take_run req he hk
  have hlen : (r.take k).length = k := List.length_take_of_le hk
  have hidx : t.idx.toNat = min k 141 := hlen ▸ hgot.idx
  obtain ⟨hactive, hpresented, -⟩ := transportPortsAsDefined t
  refine ⟨t, ht, hgot.mode, fun h => ?presented, fun h => ?beyond, ?stored⟩
  case presented =>
    have hk140 : k < 140 := by simpa using h
    have hk' : t.idx.toNat = k := by omega
    rw [hpresented ⟨hgot.mode, by omega⟩, hk', hsame.tx, List.getElem_map, List.getElem_range]
  case beyond =>
    have hk140 : 140 ≤ k := by simpa using h
    rw [hactive, decide_eq_false (by omega)]
  case stored =>
    have hrxf := hgot.rxf
    rwa [hlen, List.take_take, min_comm frameLen] at hrxf

/-! ## The accumulator of a whole frame (42_response_parser R122) -/

/-- A header position is checksummed if it is in `CHK_HDR_POS`. -/
theorem inChecksum_header (cfg : Config) {i : Nat} (h : i < 10) : inChecksum cfg i = headerChecked cfg i := by
  rw [inChecksum, decide_eq_false (by simpa using h), Bool.false_and, Bool.or_false]

/-- Every data position is checksummed. -/
theorem inChecksum_data (cfg : Config) {i : Nat} (hlow : 10 ≤ i) (hhigh : i < 138) : inChecksum cfg i = true :=
  (inChecksum_iff cfg i).mpr (.inr ⟨hlow, hhigh⟩)

/-- The checksum byte and the status byte are not checksummed. -/
theorem inChecksum_trailer (cfg : Config) {i : Nat} (h : 138 ≤ i) : inChecksum cfg i = false := by
  refine Bool.eq_false_iff.mpr (mt (inChecksum_iff cfg i).mp ?_)
  rintro (⟨p, -, hp⟩ | hdata)
  · have := p.isLt
    omega
  · omega

/-- The bytes at the checksummed positions below `n`, in rising order of position. -/
def checkedBytes (cfg : Config) (r : List Byte) (n : Nat) : List Byte :=
  (List.range n).filterMap fun p => if inChecksum cfg p then r[p]? else none

/-- ACC after the first `n` bytes of a sequence is the XOR of those at checksummed positions. -/
theorem accumulateAll_take (cfg : Config) (r : List Byte) {n : Nat} (hn : n ≤ r.length) :
    accumulateAll cfg 0 0x00 (r.take n) = xorAll (checkedBytes cfg r n) := by
  induction n with
  | zero => rfl
  | succ n ih =>
    have hlen : (r.take n).length = n := List.length_take_of_le (by omega)
    rw [List.take_succ_eq_append_getElem hn, accumulateAll_append, hlen, Nat.zero_add, ih (by omega), checkedBytes,
      checkedBytes, List.range_succ, List.filterMap_append, xorAll_append]
    cases hc : inChecksum cfg n with
    | true => simp [accumulate_checked hc, hc, List.getElem?_eq_getElem hn, xorAll]
    | false => simp [accumulate_unchecked hc, hc, xorAll]

/-- Reading `n` positions one by one from `i` on is cutting out that part of the sequence. -/
theorem filterMap_getElem?_range (r : List Byte) (i n : Nat) :
    (List.range n).filterMap (fun k => r[i + k]?) = (r.drop i).take n := by
  induction n with
  | zero => rfl
  | succ n ih =>
    rw [List.range_succ, List.filterMap_append, ih, List.take_add_one, List.getElem?_drop, List.filterMap_cons]
    cases r[i + n]? <;> rfl

/-- The checksummed positions of a frame are the header echo, then the sector data. -/
theorem checkedBytes_frame (cfg : Config) (r : List Byte) : checkedBytes cfg r 140 = headerEcho cfg r ++ sectorData r := by
  have hheader : checkedBytes cfg r 10 = headerEcho cfg r :=
    List.filterMap_congr fun p hp => by rw [inChecksum_header cfg (List.mem_range.mp hp)]
  have hdata : (List.range 128).filterMap (fun k => if inChecksum cfg (10 + k) then r[10 + k]? else none) =
      sectorData r := by
    rw [sectorData, ← filterMap_getElem?_range]
    refine List.filterMap_congr fun k hk => if_pos (inChecksum_data cfg (by omega) ?_)
    have := List.mem_range.mp hk
    omega
  rw [checkedBytes, show 140 = 10 + 128 + 2 from rfl, List.range_add, List.range_add, List.filterMap_append,
    List.filterMap_append, List.filterMap_map, ← hheader, ← hdata]
  simp [checkedBytes, inChecksum_trailer]

/-- ACC after the bytes of a whole frame is the checksum of the frame. -/
theorem accumulateAll_frame (cfg : Config) {r : List Byte} (h : r.length = 140) :
    accumulateAll cfg 0 0x00 r = chksum cfg r := by
  rw [chksum, ← checkedBytes_frame, ← accumulateAll_take cfg r h.ge, List.take_of_length_le h.le]

/-! ## The end of a transfer, as the ports show it (43_read_operation R140) -/

theorem parseFrame_frame (cfg : Config) {r : List Byte} (h : r.length = frameLen) :
    parseFrame cfg r = .ok (resultOf cfg (sectorData r) (chksum cfg r) (r[posChk.val]'(by rw [h]; decide))
      (r[posStat.val]'(by rw [h]; decide))) :=
  dif_pos h

theorem parseFrame_malformed (cfg : Config) {r : List Byte} (h : r.length ≠ frameLen) :
    parseFrame cfg r = .error .malformedResponse :=
  dif_neg h

/-- Error entry shows the error it was entered for. -/
theorem shownOutcome_raiseError (e : Abort) (s : State) : shownOutcome (raiseError e s) = some (.error e) := by
  cases e <;> rfl

/-- The whole frame was received exactly when the count is 140. -/
theorem Got.idx_eq_frameLen_iff {got : List Byte} {s : State} (h : Got got s) :
    s.idx.toNat = frameLen ↔ got.length = frameLen := by
  rw [h.idx, frameLen_eq]
  omega

/-- After 140 bytes the buffer holds exactly them. -/
theorem Got.rxf_frame {got : List Byte} {s : State} (h : Got got s) (hlen : got.length = frameLen) :
    s.rxf.bytes 0 140 = got := by
  have hrxf := h.rxf
  rwa [hlen, min_self, List.take_of_length_le hlen.le] at hrxf

/-- After 140 bytes ACC is their checksum. -/
theorem Got.acc_frame {got : List Byte} {s : State} (h : Got got s) (hlen : got.length = frameLen) :
    s.acc = chksum s.cfg got := by
  rw [h.acc, List.take_of_length_le hlen.le, accumulateAll_frame s.cfg hlen]

/-- The result delivered after 140 bytes is the parse of the frame they are. -/
theorem shownResult_deliver {r : List Byte} {s : State} (h : Got r s) (hlen : r.length = frameLen) :
    parseFrame s.cfg r = .ok (shownResult (deliver (s.rxf.read posChk) (s.rxf.read posStat) s)) := by
  have hbytes := h.rxf_frame hlen
  have hdata : s.rxf.bytes posData dataLen = sectorData r := by
    rw [sectorData, ← hbytes, Memory.bytes_drop_take s.rxf 140 posData dataLen (by decide)]
  rw [parseFrame_frame s.cfg hlen, ← hdata, ← h.acc_frame hlen,
    ← Memory.read_of_bytes hbytes posChk (by rw [hlen]; decide),
    ← Memory.read_of_bytes hbytes posStat (by rw [hlen]; decide)]
  rfl

/-- END leads to what the frame-level READ makes of the bytes received. -/
theorem shownOutcome_endTransfer {r : List Byte} {s : State} (h : Got r s) :
    shownOutcome (endTransfer s) = some (answerOutcome s.cfg (.ok r)) := by
  by_cases hlen : r.length = frameLen
  · rw [endTransfer_parse (h.idx_eq_frameLen_iff.mpr hlen), answerOutcome, shownResult_deliver h hlen]
    rfl
  · rw [endTransfer_malformed (mt h.idx_eq_frameLen_iff.mp hlen), shownOutcome_raiseError, answerOutcome,
      parseFrame_malformed s.cfg hlen]

/-- END leaves the data of the other agents as they are. -/
theorem endTransfer_agents (s : State) : (endTransfer s).port = s.port ∧ (endTransfer s).events = s.events := by
  by_cases hi : s.idx.toNat = frameLen
  · rw [endTransfer_parse hi]
    exact ⟨rfl, rfl⟩
  · rw [endTransfer_malformed hi]
    exact ⟨rfl, rfl⟩

/-! ## The steps of an answer (41_frame_sync R108) -/

/-- The bytes an answer delivers. -/
def Answer.bytes : Answer → List Byte
  | .ok r => r
  | .err before _ => before

/-- The event that ends an answer. -/
def Answer.last : Answer → Event
  | .ok _ => .finish
  | .err _ c => .fail c

/-- The state the last event of an answer leads to. -/
def Answer.conclude : Answer → State → State
  | .ok _, s => endTransfer s
  | .err _ c, s => failTransfer c s

theorem answerEvents_eq (a : Answer) : answerEvents a = a.bytes.map Event.rx ++ [a.last] := by
  cases a <;> rfl

/-- In a transfer the last event of an answer concludes it. -/
theorem onEvent_last (a : Answer) {s : State} (hm : s.mode = .xfer) : onEvent a.last s = .next (a.conclude s) := by
  cases a <;> exact duringTransfer_busy hm _

/-- A transfer is concluded with the outcome of its answer. -/
theorem shownOutcome_conclude (a : Answer) {s : State} (h : Got a.bytes s) :
    shownOutcome (a.conclude s) = some (answerOutcome s.cfg a) := by
  cases a with
  | ok r => exact shownOutcome_endTransfer h
  | err before c => exact shownOutcome_raiseError (.transportError c) s

theorem conclude_agents (a : Answer) (s : State) : (a.conclude s).port = s.port ∧ (a.conclude s).events = s.events := by
  cases a with
  | ok r => exact endTransfer_agents s
  | err before c => exact ⟨rfl, rfl⟩

/-- What was received does not depend on what the other agents will do. -/
theorem Got.withEvents {got : List Byte} {s : State} (h : Got got s) (rest : List Event) : Got got (withEvents rest s) :=
  ⟨h.mode, h.idx, h.rxf, h.acc⟩

/-- The steps of an answer: its bytes are received one by one, then the transfer is concluded. -/
theorem answer_run (req : Request) (a : Answer) {s : State} {rest : List Event} (he : s.events = answerEvents a ++ rest) :
    ∃ t, runSteps (answerEvents a).length (acceptRequest req s) = .next (a.conclude t) ∧ Got a.bytes t ∧
      t.cfg = s.cfg ∧ t.port = s.port ∧ t.events = rest := by
  rw [answerEvents_eq, List.append_assoc] at he
  obtain ⟨u, hu, hgot, hsame, hlast⟩ := got_run a.bytes (got_accepted req s) he
  have hstep : step u = .next (a.conclude (withEvents rest u)) :=
    (step_event (readyRequest_busy hgot.mode) hlast).trans (onEvent_last a hgot.mode)
  refine ⟨withEvents rest u, ?_, hgot.withEvents rest, hsame.cfg, hsame.port, rfl⟩
  rw [answerEvents_eq, List.length_append, List.length_map, runSteps_add _ _ hu]
  exact runSteps_succ 0 hstep

/-- After a response of 140 bytes `DONE` is entered with the response in the buffer, whatever it held before. -/
theorem endTransfer_frame {r : List Byte} {s : State} (h : Got r s) (hlen : r.length = frameLen) :
    (endTransfer s).mode = .done ∧ (endTransfer s).rxf.bytes 0 140 = r := by
  rw [endTransfer_parse (h.idx_eq_frameLen_iff.mpr hlen)]
  exact ⟨rfl, h.rxf_frame hlen⟩

theorem readOutcome_legal {cfg : Config} {req : Request} (h : addrLegal cfg req.addrIn = true) (a : Answer) :
    readOutcome cfg req a = answerOutcome cfg a := by
  rw [readOutcome, build_legal h]

theorem readOutcome_illegal {cfg : Config} {req : Request} (h : addrLegal cfg req.addrIn = false) (a : Answer) :
    readOutcome cfg req a = .error .invalidAddress := by
  rw [readOutcome, build_illegal h]

/-- Settles O41: a legal request is accepted, and the steps of the answer conclude with its outcome; an illegal one is error entry,
and BUILD raises the same error. -/
theorem readRunsToFrameLevelOutcome : Obligations.ReadRunsToFrameLevelOutcome := by
  intro s req a rest hm he
  refine ⟨fun h => ?legal, fun h => ?illegal⟩
  case legal =>
    have hlegal := addrLegal_iff.mpr h
    obtain ⟨t, ht, hgot, hcfg, hport, hevents⟩ := answer_run req a he
    obtain ⟨hport', hevents'⟩ := conclude_agents a t
    refine ⟨acceptRequest req s, a.conclude t, exec_read_legal hm hlegal, rfl, ht, ?outcome,
      hevents'.trans hevents, hport'.trans hport, ?response⟩
    case outcome => rw [shownOutcome_conclude a hgot, hcfg, readOutcome_legal hlegal]
    case response =>
      rintro r rfl hlen
      exact endTransfer_frame hgot hlen
  case illegal =>
    have hillegal := addrLegal_eq_false h
    have houtcome := readOutcome_illegal hillegal a
    exact ⟨raiseError .invalidAddress s, exec_read_illegal hm hillegal, rfl, rfl,
      houtcome ▸ shownOutcome_raiseError .invalidAddress s, houtcome⟩

end Sys2Proof.Machine
end

section
/-! SUPPORT. Proofs about the parser (42_response_parser): the frame's checksum and parse, what the parse looks at, and the
transfer that shows that a valid result need not echo the address asked for. -/

namespace Sys2Proof.Machine

/-- Settles O36: `accumulateAll_frame`, an induction over the bytes received. -/
theorem runningAccumulatorIsChecksum : Obligations.RunningAccumulatorIsChecksum :=
  fun cfg _ h => accumulateAll_frame cfg h

/-! ## The parts of a frame (42_response_parser R121, R124) -/

theorem sectorData_length {r : List Byte} (h : r.length = 140) : (sectorData r).length = 128 := by
  simp [sectorData, h]

theorem sectorData_getElem (r : List Byte) {k : Nat} (hk : k < (sectorData r).length) (hk' : 10 + k < r.length) :
    (sectorData r)[k] = r[10 + k] := by
  simp [sectorData]

theorem resultOf_diagChk_iff (cfg : Config) (data : List Byte) (computed checksum status : Byte) :
    (resultOf cfg data computed checksum status).diagChk = true ↔ computed ≠ checksum := by
  rw [resultOf, chkBad_eq_decide, decide_eq_true_iff]

theorem resultOf_diagStat_iff (cfg : Config) (data : List Byte) (computed checksum status : Byte) :
    (resultOf cfg data computed checksum status).diagStat = true ↔ status ∉ cfg.statusOk := by
  rw [resultOf, statBad_eq_decide, decide_eq_true_iff]

theorem resultOf_valid_iff (cfg : Config) (data : List Byte) (computed checksum status : Byte) :
    (resultOf cfg data computed checksum status).valid = true ↔ computed = checksum ∧ status ∈ cfg.statusOk := by
  rw [resultOf, validResult_eq_decide, decide_eq_true_iff]

/-- Settles O37: the length decides the branch, and the parts of the result are those of `resultOf`. -/
theorem parseOfFrame : Obligations.ParseOfFrame := by
  intro cfg r
  refine ⟨parseFrame_malformed cfg, fun h => ⟨_, parseFrame_frame cfg h, sectorData_length h, ?data, rfl, rfl, ?flags⟩⟩
  case data => exact fun k hk hk' => sectorData_getElem r hk hk'
  case flags => exact ⟨resultOf_diagChk_iff .., resultOf_diagStat_iff .., resultOf_valid_iff ..⟩

/-! ## What the parse looks at (42_response_parser R127) -/

theorem sectorData_congr {r r' : List Byte} (h : ∀ k, 10 ≤ k → r[k]? = r'[k]?) : sectorData r = sectorData r' := by
  have hdrop : r.drop posData = r'.drop posData := by
    refine List.ext_getElem? fun k => ?_
    rw [List.getElem?_drop, List.getElem?_drop, h _ (Nat.le_add_right _ k)]
  rw [sectorData, sectorData, hdrop]

theorem headerChecked_iff {cfg : Config} {i : Nat} : headerChecked cfg i = true ↔ ∃ p ∈ cfg.chkHdrPos, p.val = i := by
  simp [headerChecked]

theorem headerEcho_congr {cfg : Config} {r r' : List Byte} (h : ∀ k, (∃ p ∈ cfg.chkHdrPos, p.val = k) → r[k]? = r'[k]?) :
    headerEcho cfg r = headerEcho cfg r' := by
  refine List.filterMap_congr fun k _ => ?_
  split
  · next hk => exact h k (headerChecked_iff.mp hk)
  · rfl

/-- Frames of 140 bytes with the same echo and the same bytes from position 10 on have the same parse. -/
theorem parseFrame_congr {cfg : Config} {r r' : List Byte} (hlen : r.length = 140) (hlen' : r'.length = 140)
    (hecho : headerEcho cfg r = headerEcho cfg r') (htail : ∀ k, 10 ≤ k → r[k]? = r'[k]?) :
    parseFrame cfg r = parseFrame cfg r' := by
  have hdata : sectorData r = sectorData r' := sectorData_congr htail
  have hsum : chksum cfg r = chksum cfg r' := by rw [chksum, chksum, hecho, hdata]
  have hbyte (pos : RxPos) (hpos : 10 ≤ pos.val) : r[pos.val]'(hlen ▸ pos.isLt) = r'[pos.val]'(hlen' ▸ pos.isLt) := by
    simpa [hlen, hlen'] using htail pos.val hpos
  rw [parseFrame_frame cfg hlen, parseFrame_frame cfg hlen', hdata, hsum, hbyte posChk (by decide),
    hbyte posStat (by decide)]

/-- Settles O38: the checksum looks at the header only at `CHK_HDR_POS`, the rest of the parse only from position 10 on. -/
theorem headerBytesOutsideEchoAreIgnored : Obligations.HeaderBytesOutsideEchoAreIgnored := by
  intro cfg r r' hlen hlen' h
  exact parseFrame_congr hlen hlen' (headerEcho_congr fun k hk => h k (.inr hk)) fun k hk => h k (.inl hk)

/-! ## What the parser does not check about the echo (42_response_parser R128) -/

/-- The frame of P13 (95_test_vectors) as the buffer holds it: the echo `00 40`, the data 0 to 127, checksum and status. -/
def bufferP13 : Memory :=
  ⟨(9, 0x40) :: (List.range 127).map (fun k => (11 + k, BitVec.ofNat 8 (k + 1))) ++ [(138, 0x40), (139, 0x47)]⟩

/-- The transfer of R-6 (95_test_vectors) before END: sector 0x0000 was asked for, and P13's frame was received. -/
def sector0AnsweredByP13 : State :=
  { State.reset with
    mode := .xfer
    addrR := 0x0000
    idx := 140
    rxf := bufferP13
    acc := 0x40
    events := [.finish] }

theorem bufferP13_wf : bufferP13.wf = true := by decide

theorem accumulateAll_bufferP13 : accumulateAll Config.defaults 0 0x00 (bufferP13.bytes 0 140) = 0x40 := by
  decide +kernel

theorem inv_sector0AnsweredByP13 : Inv sector0AnsweredByP13 where
  rxfWf := bufferP13_wf
  idxBound := by decide
  whenIdle := nofun
  whenXfer := fun _ => ⟨rfl, ⟨rfl, rfl, rfl⟩, by decide⟩
  accXfer := fun _ => accumulateAll_bufferP13.symm
  whenDone := nofun
  faultIff := by decide
  whenFault := nofun

/-- Refutes O40: END of R-6's transfer delivers a valid result, its checksum and status being right, and the second byte of
the echo is `0x40` where that of the address asked for is `0x00`. -/
theorem not_validImpliesEchoedAddress : ¬ Obligations.ValidImpliesEchoedAddress := by
  intro h
  have hend : step sector0AnsweredByP13 = .next (deliver (bufferP13.read posChk) (bufferP13.read posStat)
      (withEvents [] sector0AnsweredByP13)) :=
    step_of_stepCase (.delivered [] rfl (readyRequest_busy rfl) rfl rfl)
  have hvalid : validResult (chkBad 0x40 (bufferP13.read posChk)) (statBad Config.defaults (bufferP13.read posStat)) = true := by
    decide
  obtain ⟨-, hecho⟩ := h _ _ inv_sector0AnsweredByP13 hend rfl hvalid
  exact absurd (show bufferP13.read 9 = addrLsb 0x0000 from hecho) (by decide)

end Sys2Proof.Machine
end

section
/-! SUPPORT. Proofs about the READ operation (43_read_operation): its outcome is a function of the answer (R144), the modes
change as the transition table says, and each register is written by the rows that name it (R142). -/

namespace Sys2Proof.Machine

/-! ## The outcome is a function of the answer (R144) -/

/-- A READ of a legal address completes with the outcome that its answer has under the parameters. -/
theorem legal_read_outcome {s : State} {req : Request} {a : Answer} {rest : List Event} (hm : s.mode ≠ .xfer)
    (he : s.events = answerEvents a ++ rest) (hlegal : addrLegal s.cfg req.addrIn = true) :
    ∃ t₁ t, exec (.read req) s = .next t₁ ∧ runSteps (answerEvents a).length t₁ = .next t ∧
      shownOutcome t = some (answerOutcome s.cfg a) := by
  obtain ⟨hrun, -⟩ := readRunsToFrameLevelOutcome s req a rest hm he
  obtain ⟨t₁, t, hexec, -, hsteps, hshown, -⟩ := hrun (addrLegal_iff.mp hlegal)
  exact ⟨t₁, t, hexec, hsteps, hshown.trans (congrArg some (readOutcome_legal hlegal a))⟩

/-- Settles O43: each of the two READs completes with `answerOutcome`, which names neither the request nor a register. -/
theorem outcomeDependsOnAnswerOnly : Obligations.OutcomeDependsOnAnswerOnly := by
  intro s s' req req' a rest rest' hcfg hm hm' he he' hlegal hlegal'
  obtain ⟨t₁, t, hexec, hsteps, hshown⟩ := legal_read_outcome hm he hlegal
  obtain ⟨t₁', t', hexec', hsteps', hshown'⟩ := legal_read_outcome hm' he' (hcfg ▸ hlegal')
  refine ⟨t₁, t, t₁', t', hexec, hsteps, hexec', hsteps', ?same, ?complete⟩
  case same => rw [hshown, hshown', hcfg]
  case complete => exact hshown ▸ Option.some_ne_none _

/-! ## The mode transition table (R142) -/

theorem nextReaction_wait {s : State} (hr : readyRequest s = none) (he : s.events = []) : nextReaction s = none := by
  rw [nextReaction, hr, he, List.head?_nil]

/-- START outside `XFER` takes the row of an accepted or of an illegal request, whatever the other agents will do. -/
theorem modeChange_start {s : State} (hm : s.mode ≠ .xfer) (req : Request) (port : Option Request) (events : List Event) :
    ModeChange s (.start req) (start req { s with port := port, events := events }).mode := by
  obtain ⟨hlegal, heq⟩ | ⟨hillegal, heq⟩ := start_cases req { s with port := port, events := events } <;> rw [heq]
  · exact .accepted req hm hlegal
  · exact .illegal req hm hillegal

/-- A step is a wait, or the reaction to an event by one of the rows. -/
theorem step_wait_or_modeChange {s t : State} (hs : step s = .next t) :
    (nextReaction s = none ∧ t = s) ∨ ∃ e, nextReaction s = some e ∧ ModeChange s e t.mode := by
  cases step_cases hs with
  | wait he hr => exact .inl ⟨nextReaction_wait hr he, rfl⟩
  | ready req hm hp => exact .inr ⟨_, nextReaction_ready hm hp, modeChange_start hm req none s.events⟩
  | started req rest he hr hm => exact .inr ⟨_, nextReaction_event hr he, modeChange_start hm req s.port rest⟩
  | held req rest he hr hm => exact .inr ⟨_, nextReaction_event hr he, hm ▸ .held req hm⟩
  | exchange b rest he hr hm => exact .inr ⟨_, nextReaction_event hr he, hm ▸ .received b hm⟩
  | beyond b rest he hr hm => exact .inr ⟨_, nextReaction_event hr he, hm ▸ .received b hm⟩
  | malformed rest he hr hm hi => exact .inr ⟨_, nextReaction_event hr he, .malformed hm hi⟩
  | delivered rest he hr hm hi => exact .inr ⟨_, nextReaction_event hr he, .wellFormed hm hi⟩
  | failed c rest he hr hm => exact .inr ⟨_, nextReaction_event hr he, .failed c hm⟩
  | cleared rest he hr hm => exact .inr ⟨_, nextReaction_event hr he, .reset hm⟩

/-- The step is the reaction to the event named, from the same registers and parameters. -/
theorem step_of_nextReaction {s : State} {e : Event} (h : nextReaction s = some e) :
    ∃ port events, step s = onEvent e { s with port := port, events := events } := by
  cases hr : readyRequest s with
  | some req =>
    rw [nextReaction, hr] at h
    cases h
    obtain ⟨hm, hp⟩ := readyRequest_eq_some.mp hr
    exact ⟨none, s.events, step_eq_exec_of_ready hm hp⟩
  | none =>
    rw [nextReaction, hr] at h
    obtain ⟨rest, he⟩ := List.head?_eq_some_iff.mp h
    exact ⟨s.port, rest, step_event hr he⟩

/-- RX changes no mode (41_frame_sync R103, R104). -/
theorem receive_mode (b : Byte) (s : State) : (receive b s).mode = s.mode := by
  by_cases hi : s.idx.toNat < frameLen
  · rw [receive_inside b hi, xchg_mode]
  · rw [receive_beyond b hi, extra_mode]

/-- END with the count 140 enters `DONE` (41_frame_sync R105). -/
theorem endTransfer_mode_frame {s : State} (h : s.idx.toNat = frameLen) : (endTransfer s).mode = .done := by
  rw [endTransfer_parse h, deliver_mode]

/-- END with another count enters `FAULT` (41_frame_sync R105). -/
theorem endTransfer_mode_malformed {s : State} (h : s.idx.toNat ≠ frameLen) : (endTransfer s).mode = .fault := by
  rw [endTransfer_malformed h, raiseError_mode]

/-- The reaction to an event by a row of the table enters the mode the row names. -/
theorem onEvent_of_modeChange {s : State} {e : Event} {m : Mode} (h : ModeChange s e m) (port : Option Request)
    (events : List Event) : ∃ t, onEvent e { s with port := port, events := events } = .next t ∧ t.mode = m := by
  cases h with
  | reset hm => exact ⟨_, onReset_rest hm, rfl⟩
  | accepted req hm hlegal => exact ⟨_, exec_read_legal hm hlegal, rfl⟩
  | illegal req hm hillegal => exact ⟨_, exec_read_illegal hm hillegal, rfl⟩
  | held req hm => exact ⟨_, exec_read_busy req hm, hm⟩
  | received b hm => exact ⟨_, duringTransfer_busy hm _, (receive_mode b _).trans hm⟩
  | wellFormed hm hi => exact ⟨_, duringTransfer_busy hm _, endTransfer_mode_frame hi⟩
  | malformed hm hi => exact ⟨_, duringTransfer_busy hm _, endTransfer_mode_malformed hi⟩
  | failed c hm => exact ⟨_, duringTransfer_busy hm _, rfl⟩

/-- Settles O24: `step_wait_or_modeChange` from the step to the table, `onEvent_of_modeChange` from the table to the step. -/
theorem modeChangesAsTableLists : Obligations.ModeChangesAsTableLists := by
  refine ⟨fun s t hnone hs => ?wait, fun s t e he hs => ?row, fun s e m he hrow => ?step⟩
  case wait =>
    obtain ⟨-, heq⟩ | ⟨e, he, -⟩ := step_wait_or_modeChange hs
    · exact heq
    · cases hnone.symm.trans he
  case row =>
    obtain ⟨hnone, -⟩ | ⟨e', he', hrow⟩ := step_wait_or_modeChange hs
    · cases hnone.symm.trans he
    · cases he.symm.trans he'
      exact hrow
  case step =>
    obtain ⟨port, events, hs⟩ := step_of_nextReaction he
    rw [hs]
    exact onEvent_of_modeChange hrow port events

/-! ## Who writes which register (R142) -/

/-- `ADDR_R`, `SLOT_R` and `CID_R` hold the same. -/
def SameLatched (s t : State) : Prop :=
  t.addrR = s.addrR ∧ t.slotR = s.slotR ∧ t.cidR = s.cidR

/-- START latches a request only where it enters `XFER`, and writes neither `RXF` nor `CAUSE` (41_frame_sync R100). -/
theorem start_writes (req : Request) (s : State) :
    (SameLatched s (start req s) ∨ (start req s).mode = .xfer) ∧ (start req s).rxf = s.rxf ∧
      (start req s).cause = s.cause := by
  obtain ⟨-, heq⟩ | ⟨-, heq⟩ := start_cases req s <;> rw [heq]
  · exact ⟨.inr rfl, rfl, rfl⟩
  · exact ⟨.inl ⟨rfl, rfl, rfl⟩, rfl, rfl⟩

/-- A step other than RESET keeps the latched request but for an accepted START, `RXF` but for XCHG, `CAUSE` but for FAIL. -/
theorem step_writes {s t : State} (hs : step s = .next t) (hreset : nextReaction s ≠ some .reset) :
    (SameLatched s t ∨ ∃ req, nextReaction s = some (.start req) ∧ s.mode ≠ .xfer ∧ t.mode = .xfer) ∧
    (t.rxf = s.rxf ∨ ∃ b, nextReaction s = some (.rx b) ∧ s.mode = .xfer ∧ s.idx.toNat < 140) ∧
    (t.cause = s.cause ∨ ∃ c, nextReaction s = some (.fail c) ∧ t.cause = c ∧ t.err = .transportError) := by
  cases step_cases hs with
  | ready req hm hp =>
    obtain ⟨hlatched, hrxf, hcause⟩ := start_writes req (takeRequest s)
    exact ⟨hlatched.imp_right fun hmode => ⟨req, nextReaction_ready hm hp, hm, hmode⟩, .inl hrxf, .inl hcause⟩
  | started req rest he hr hm =>
    obtain ⟨hlatched, hrxf, hcause⟩ := start_writes req (withEvents rest s)
    exact ⟨hlatched.imp_right fun hmode => ⟨req, nextReaction_event hr he, hm, hmode⟩, .inl hrxf, .inl hcause⟩
  | exchange b rest he hr hm hi =>
    exact ⟨.inl ⟨rfl, rfl, rfl⟩, .inr ⟨b, nextReaction_event hr he, hm, hi⟩, .inl rfl⟩
  | failed c rest he hr hm =>
    exact ⟨.inl ⟨rfl, rfl, rfl⟩, .inl rfl, .inr ⟨c, nextReaction_event hr he, rfl, rfl⟩⟩
  | cleared rest he hr => exact absurd (nextReaction_event hr he) hreset
  | wait => exact ⟨.inl ⟨rfl, rfl, rfl⟩, .inl rfl, .inl rfl⟩
  | held => exact ⟨.inl ⟨rfl, rfl, rfl⟩, .inl rfl, .inl rfl⟩
  | beyond => exact ⟨.inl ⟨rfl, rfl, rfl⟩, .inl rfl, .inl rfl⟩
  | malformed => exact ⟨.inl ⟨rfl, rfl, rfl⟩, .inl rfl, .inl rfl⟩
  | delivered => exact ⟨.inl ⟨rfl, rfl, rfl⟩, .inl rfl, .inl rfl⟩

/-- Settles O25: a register that changed was not kept, so `step_writes` names the event that wrote it. -/
theorem registersWrittenAsTableLists : Obligations.RegistersWrittenAsTableLists := by
  intro s t hs hreset
  obtain ⟨hlatched, hrxf, hcause⟩ := step_writes hs hreset
  refine ⟨fun hchanged => hlatched.resolve_left ?_, hrxf.resolve_left, hcause.resolve_left⟩
  rintro ⟨haddr, hslot, hcid⟩
  obtain hne | hne | hne := hchanged
  · exact hne haddr
  · exact hne hslot
  · exact hne hcid

end Sys2Proof.Machine
end

section
/-! SUPPORT. Proofs about error entry (60_exceptions): the only way into `FAULT`, and what it writes and keeps (R166). -/

namespace Sys2Proof.Machine

/-- The event at which an aborting cause is raised (60_exceptions R160 to R163): START, FAIL with that cause, END. -/
def Abort.RaisedAt : Abort → Event → Prop
  | .invalidAddress, e => ∃ req, e = .start req
  | .transportError c, e => e = .fail c
  | .malformedResponse, e => e = .finish

/-- START enters `FAULT` only by error entry (41_frame_sync R100). -/
theorem start_into_fault {req : Request} {s : State} (h : (start req s).mode = .fault) :
    start req s = raiseError .invalidAddress s := by
  obtain ⟨-, heq⟩ | ⟨-, heq⟩ := start_cases req s
  · rw [heq] at h; cases h
  · exact heq

/-- A reaction that ends in `FAULT` is error entry for a cause raised at its event, from the same registers. -/
theorem step_into_fault {s t : State} (hreacts : nextReaction s ≠ none) (hs : step s = .next t) (hafter : t.mode = .fault) :
    ∃ a e port events, nextReaction s = some e ∧ a.RaisedAt e ∧
      t = raiseError a { s with port := port, events := events } := by
  cases step_cases hs with
  | wait he hr => exact absurd (nextReaction_wait hr he) hreacts
  | ready req hm hp =>
    exact ⟨.invalidAddress, _, none, s.events, nextReaction_ready hm hp, ⟨req, rfl⟩, start_into_fault hafter⟩
  | started req rest he hr =>
    exact ⟨.invalidAddress, _, s.port, rest, nextReaction_event hr he, ⟨req, rfl⟩, start_into_fault hafter⟩
  | malformed rest he hr => exact ⟨.malformedResponse, _, s.port, rest, nextReaction_event hr he, rfl, rfl⟩
  | failed c rest he hr => exact ⟨.transportError c, _, s.port, rest, nextReaction_event hr he, rfl, rfl⟩
  | held _ _ _ _ hm => cases hm.symm.trans hafter
  | exchange _ _ _ _ hm => cases hm.symm.trans hafter
  | beyond _ _ _ _ hm => cases hm.symm.trans hafter
  | delivered => cases hafter
  | cleared => cases hafter

/-- Settles O16: the step is error entry, which clears the flags and keeps the other registers whatever the cause; the cause
gives the event, the code and what `CAUSE` holds. -/
theorem errorEntryKeepsOtherRegisters : Obligations.ErrorEntryKeepsOtherRegisters := by
  intro s t hreacts hs hafter
  obtain ⟨a, e, port, events, he, hraised, rfl⟩ := step_into_fault hreacts hs hafter
  refine ⟨?cause, rfl, rfl, rfl, rfl, rfl, rfl, rfl, rfl, rfl⟩
  cases a with
  | invalidAddress =>
    obtain ⟨req, rfl⟩ := hraised
    exact .inl ⟨⟨req, he⟩, rfl, rfl⟩
  | transportError c =>
    obtain rfl : e = .fail c := hraised
    exact .inr (.inl ⟨c, he, rfl, rfl⟩)
  | malformedResponse =>
    obtain rfl : e = .finish := hraised
    exact .inr (.inr ⟨he, rfl, rfl⟩)

end Sys2Proof.Machine
end

section
/-! SUPPORT. Proofs about reset and hazards (70_reset): RESET outside a transfer and during one (R180, R181), the transfer that
never ends (R187), and the corruption that the checksum misses (R189). -/

namespace Sys2Proof.Machine

/-! ## RESET (R180, R181) -/

theorem onReset_busy {s : State} (h : s.mode = .xfer) : onReset s = .refused .resetDuringTransfer :=
  if_pos h

/-- Settles O19: outside a transfer the step is `resetCore`, whose registers are read off; during one the reaction to RESET is
the refusal. -/
theorem resetEventClears : Obligations.ResetEventClears := by
  intro s rest he
  refine ⟨fun hm hp => ?cleared, fun hm => ?refused⟩
  case cleared =>
    have hs := step_of_stepCase (.cleared rest he (readyRequest_eq_none.mpr (.inr hp)) hm)
    exact ⟨_, hs, rfl, rfl, rfl, rfl, rfl, rfl, rfl, rfl, rfl⟩
  case refused => exact (step_event (readyRequest_busy hm) he).trans (onReset_busy hm)

/-! ## A transfer that never ends (R187) -/

/-- CORE after it accepted, from reset, a request for sector 0, when neither the transport nor anyone else acts again. -/
def abandonedTransfer : State :=
  acceptRequest ⟨0, .slot1, none⟩ State.reset

theorem inv_abandonedTransfer : Inv abandonedTransfer :=
  Inv.acceptRequest (inv_resetCore State.reset) (by decide)

/-- Refutes O30: the transfer begun from reset that no event follows waits for ever (O29), so every run of it ends where it
started, in `XFER`. -/
theorem not_everyTransferEnds : ¬ Obligations.EveryTransferEnds := by
  intro h
  obtain ⟨k, t, ht, hleft⟩ := h abandonedTransfer inv_abandonedTransfer rfl
  have hwaits : runSteps k abandonedTransfer = .next abandonedTransfer := noEventNoChange k _ rfl (.inl rfl)
  cases hwaits.symm.trans ht
  exact hleft rfl

/-! ## What the checksum misses (R189) -/

/-- Flipping the bits `d` in one byte of a sequence flips them in its XOR. -/
theorem xorAll_set_xor (bs : List Byte) {i : Nat} (hi : i < bs.length) (d : Byte) :
    xorAll (bs.set i (bs[i] ^^^ d)) = xorAll bs ^^^ d := by
  induction bs generalizing i with
  | nil => cases hi
  | cons b bs ih =>
    cases i with
    | zero => simp only [List.set_cons_zero, List.getElem_cons_zero, xorAll]; ac_rfl
    | succ i =>
      have hi' : i < bs.length := Nat.lt_of_succ_lt_succ hi
      simp only [List.set_cons_succ, List.getElem_cons_succ, xorAll, ih hi', BitVec.xor_assoc]

/-- The echo holds header bytes only. -/
theorem headerEcho_set_data (cfg : Config) (r : List Byte) {i : Nat} (hi : 10 ≤ i) (b : Byte) :
    headerEcho cfg (r.set i b) = headerEcho cfg r := by
  refine headerEcho_congr fun k hk => List.getElem?_set_ne ?_
  obtain ⟨p, -, rfl⟩ := hk
  have := p.isLt
  omega

/-- A byte written from position 10 on is written at its place in the data. -/
theorem sectorData_set (r : List Byte) {i : Nat} (hi : 10 ≤ i) (b : Byte) :
    sectorData (r.set i b) = (sectorData r).set (i - 10) b := by
  rw [sectorData, sectorData, List.drop_set, if_neg (Nat.not_lt.mpr hi), List.take_set]

/-- Flipping the bits `d` in one data byte of a frame flips them in its checksum. -/
theorem chksum_set_data_xor (cfg : Config) {r : List Byte} {i : Nat} (hlen : r.length = 140) (hlow : 10 ≤ i) (hhigh : i < 138)
    (d : Byte) : chksum cfg (r.set i (r[i] ^^^ d)) = chksum cfg r ^^^ d := by
  have hdata : i - 10 < (sectorData r).length := by
    rw [sectorData_length hlen]
    omega
  have hbyte : (sectorData r)[i - 10] = r[i] := by
    simp only [sectorData_getElem r hdata (by omega), Nat.add_sub_cancel' hlow]
  rw [chksum, chksum, headerEcho_set_data cfg r hlow, sectorData_set r hlow, ← hbyte, xorAll_append, xorAll_append,
    xorAll_set_xor _ hdata, BitVec.xor_assoc]

/-- Settles O39: each of the two flips flips the same bits of the checksum, so the second undoes the first. -/
theorem checksumMissesPairedFlips : Obligations.ChecksumMissesPairedFlips := by
  intro cfg r j k d h hj hjk hk
  have hlen : (r.set j (r[j] ^^^ d)).length = 140 := List.length_set.trans h
  have hother : (r.set j (r[j] ^^^ d))[k] = r[k] := List.getElem_set_ne hjk.ne _
  rw [← hother, chksum_set_data_xor cfg hlen (hj.trans hjk.le) hk, chksum_set_data_xor cfg h hj (hjk.trans hk),
    BitVec.xor_assoc, BitVec.xor_self, BitVec.xor_zero]

end Sys2Proof.Machine
end
